-- ==== Sys2Proof/Word.lean ====
section
/-! DEFINITION. The bit-vector widths of the block: bytes, 16-bit fields, the 48-bit header word (00_scope.md R8). -/

namespace Sys2Proof

/-- A byte: 8 bits, bit 7 the most significant (R8). -/
abbrev Byte := BitVec 8

/-- A 16-bit field: a service identifier or a total length (R8, R44). -/
abbrev Half := BitVec 16

/-- The header word `W`, byte 0 of the header in bits 47:40 (30_encoding.md R43). -/
abbrev HeaderWord := BitVec 48

end Sys2Proof
end

