-- ==== Sys2Proof/Syntax.lean ====
section
/-! DEFINITION. Kinds, opaque collaborator values, the request port's record, and `Instr`: one constructor per row of
spec/opcode_table.json. -/

namespace Sys2Proof

/-- The 11 message kinds, in the order of their tags 0 to 10 (30_encoding.md R48). -/
inductive Kind where
  | connReq | connRes | connstateReq | connstateRes | discReq | discRes
  | tunnelReq | tunnelRes | routingInd | routingLost | routingBusy
deriving DecidableEq, Repr

/-- An opaque payload of a kind, named by a token (10_state.md R23): the block never looks inside. -/
structure Payload where
  token : Nat
deriving DecidableEq, Repr

/-- An opaque decoded instance of a kind (R24, R73): the block never looks inside. -/
structure Instance where
  token : Nat
deriving DecidableEq, Repr

/-- A collaborator's error value, forwarded unchanged and uninterpreted (60_exceptions.md R87, R88, R89; I4). -/
structure ErrVal where
  token : Nat
deriving DecidableEq, Repr

/-- A Service: the pair of a kind tag and an opaque instance (00_scope.md R12 and glossary; 10_state.md R25). -/
structure Service where
  kind : Kind
  inst : Instance
deriving DecidableEq, Repr

/-- The wires of the request port (10_state.md R23): the 2-bit `op` and the operands of all four operations.
An operation reads only the operands R23 gives it. -/
structure Request where
  op      : BitVec 2
  sid     : Half
  bodyLen : Nat
  input   : List Byte
  kind    : BitVec 4
  payload : Payload
deriving DecidableEq, Repr

/-- One constructor per row of spec/opcode_table.json. The four operations carry the operand record of R23; a dispatch
entry carries `W[15:0]`, the total length its header word holds, which no rule examines (R45, R56). -/
inductive Instr where
  /-- HDR_PACK (R53): `sid` and the body length `B`. -/
  | hdrPack (sid : Half) (bodyLen : Nat)
  /-- HDR_UNPACK (R54): the input bytes. -/
  | hdrUnpack (input : List Byte)
  /-- PACK (R75): the 4-bit kind tag and the payload. -/
  | pack (k : BitVec 4) (x : Payload)
  /-- UNPACK (R76): the input bytes. -/
  | unpack (input : List Byte)
  /-- CONN_REQ (R60). -/
  | connReq (totalLen : Half)
  /-- CONN_RES (R61). -/
  | connRes (totalLen : Half)
  /-- CONNSTATE_REQ (R62). -/
  | connstateReq (totalLen : Half)
  /-- CONNSTATE_RES (R63). -/
  | connstateRes (totalLen : Half)
  /-- DISC_REQ (R64). -/
  | discReq (totalLen : Half)
  /-- DISC_RES (R65). -/
  | discRes (totalLen : Half)
  /-- TUNNEL_REQ (R66). -/
  | tunnelReq (totalLen : Half)
  /-- TUNNEL_RES (R67). -/
  | tunnelRes (totalLen : Half)
  /-- ROUTING_IND (R68). -/
  | routingInd (totalLen : Half)
  /-- ROUTING_LOST (R69). -/
  | routingLost (totalLen : Half)
  /-- ROUTING_BUSY (R70). -/
  | routingBusy (totalLen : Half)
deriving DecidableEq, Repr

/-- What the decoder is given: the request port of an operation row (format REQ2), or the header bytes of a dispatch
row (format HDR48). -/
inductive Encoded where
  | request (r : Request)
  | header  (bytes : List Byte)
deriving DecidableEq, Repr

end Sys2Proof
end

