-- ==== Sys2Proof/Config.lean ====
section
/-! DEFINITION. What is fixed for the lifetime of a model instance (00_scope.md R7): the hardwired constants, the type of
the registry ROM and the overflow parameter. The two parameters themselves stand in State, so that statements quantify
over them; the oracles of R7 stand there as their answers. -/

namespace Sys2Proof

/-- `HDR_LEN_CONST`, hardwired (10_state.md R16). -/
def Config.hdrLenConst : Byte := 0x06

/-- `PROTO_VER_CONST`, hardwired, decimal 16 (10_state.md R16). -/
def Config.protoVerConst : Byte := 0x10

/-- `HDR_SIZE`, the offset at which every body starts (10_state.md R17). -/
def Config.hdrSize : Nat := 6

/-- `P_LEN_OVERFLOW` (R7; 92 D9): what HDR_PACK does with a length that does not fit 16 bits. -/
inductive LenOverflow where
  | refuse
  | wrap
deriving DecidableEq, Repr

/-- One registry entry: the identifier, and the zero-valued instance the kind's parser starts from (10_state.md R18). -/
structure RegEntry where
  serviceId : Half
  zero      : Instance
deriving DecidableEq, Repr

/-- The registry ROM `REG[0..10]`, exactly 11 entries (10_state.md R18). -/
structure Registry where
  connReq      : RegEntry
  connRes      : RegEntry
  connstateReq : RegEntry
  connstateRes : RegEntry
  discReq      : RegEntry
  discRes      : RegEntry
  tunnelReq    : RegEntry
  tunnelRes    : RegEntry
  routingInd   : RegEntry
  routingLost  : RegEntry
  routingBusy  : RegEntry
deriving DecidableEq, Repr

/-- `REG[k]`, the whole entry (R18). -/
def Registry.entry (reg : Registry) : Kind → RegEntry
  | .connReq      => reg.connReq
  | .connRes      => reg.connRes
  | .connstateReq => reg.connstateReq
  | .connstateRes => reg.connstateRes
  | .discReq      => reg.discReq
  | .discRes      => reg.discRes
  | .tunnelReq    => reg.tunnelReq
  | .tunnelRes    => reg.tunnelRes
  | .routingInd   => reg.routingInd
  | .routingLost  => reg.routingLost
  | .routingBusy  => reg.routingBusy

/-- `REG[k]` as R18 writes it: the 16-bit identifier `P_SERVICE_ID(k)`. -/
def Registry.serviceId (reg : Registry) (k : Kind) : Half :=
  (reg.entry k).serviceId

/-- The kinds in tag order (30_encoding.md R48). -/
def Kind.all : List Kind :=
  [.connReq, .connRes, .connstateReq, .connstateRes, .discReq, .discRes,
   .tunnelReq, .tunnelRes, .routingInd, .routingLost, .routingBusy]

end Sys2Proof
end

