-- ==== Sys2Proof/WellFormed.lean ====
section
/-! DEFINITION. Well-formed instructions (no reserved kind tag, 30_encoding.md R48) and well-formed model instances (an
injective registry, 10_state.md R19). -/

namespace Sys2Proof

/-- A kind tag that names a kind: 0 to 10; 11 to 15 are reserved (R48). -/
def tagNamesKind (k : BitVec 4) : Bool :=
  decide (k.toNat ≤ 10)

/-- The only operand with reserved values is PACK's kind tag (R48, R97); every other operand is free (R23, R44). -/
def Instr.wellFormed : Instr → Bool
  | .hdrPack _ _    => true
  | .hdrUnpack _    => true
  | .pack k _       => tagNamesKind k
  | .unpack _       => true
  | .connReq _      => true
  | .connRes _      => true
  | .connstateReq _ => true
  | .connstateRes _ => true
  | .discReq _      => true
  | .discRes _      => true
  | .tunnelReq _    => true
  | .tunnelRes _    => true
  | .routingInd _   => true
  | .routingLost _  => true
  | .routingBusy _  => true

/-- `k ≠ j → REG[k] ≠ REG[j]` (10_state.md R19). -/
def Registry.injective (reg : Registry) : Bool :=
  Kind.all.all fun k => Kind.all.all fun j => k == j || reg.serviceId k != reg.serviceId j

end Sys2Proof
end

