-- ==== Sys2Proof/Decode.lean ====
section
/-! DEFINITION. Kind tags, big-endian fields, the default registry, REG_LOOKUP, the decoder (request port and header
bytes) and the encoder, and `decodeTableWord`. -/

namespace Sys2Proof

/-- The 4-bit tag of a kind (30_encoding.md R48). -/
def Kind.tag : Kind → BitVec 4
  | .connReq      => 0
  | .connRes      => 1
  | .connstateReq => 2
  | .connstateRes => 3
  | .discReq      => 4
  | .discRes      => 5
  | .tunnelReq    => 6
  | .tunnelRes    => 7
  | .routingInd   => 8
  | .routingLost  => 9
  | .routingBusy  => 10

/-- The kind a tag names; 11 to 15 name none (R48). -/
def Kind.ofTag (t : BitVec 4) : Option Kind :=
  Kind.all.find? fun k => k.tag == t

/-- `v[15:8]`, the byte that comes first on the wire (20_memory.md R31). -/
def hiByte (v : Half) : Byte := v.extractLsb' 8 8

/-- `v[7:0]` (20_memory.md R31). -/
def loByte (v : Half) : Byte := v.extractLsb' 0 8

/-- `a ‖ b`: the byte at the lower offset is the more significant (20_memory.md R30). -/
def be16 (a b : Byte) : Half := a ++ b

/-- The default `P_SERVICE_ID`: PRESUMED, the spec's own default from general knowledge (R49, K1). -/
def defaultServiceId : Kind → Half
  | .connReq      => 0x0205
  | .connRes      => 0x0206
  | .connstateReq => 0x0207
  | .connstateRes => 0x0208
  | .discReq      => 0x0209
  | .discRes      => 0x020A
  | .tunnelReq    => 0x0420
  | .tunnelRes    => 0x0421
  | .routingInd   => 0x0530
  | .routingLost  => 0x0531
  | .routingBusy  => 0x0532

/-- The default entry of a kind. The zero-valued instance's content is the collaborator's (I16): DESIGN CHOICE token 0. -/
def defaultEntry (k : Kind) : RegEntry :=
  { serviceId := defaultServiceId k, zero := { token := 0 } }

/-- The registry ROM with the default table (R49). -/
def defaultRegistry : Registry where
  connReq      := defaultEntry .connReq
  connRes      := defaultEntry .connRes
  connstateReq := defaultEntry .connstateReq
  connstateRes := defaultEntry .connstateRes
  discReq      := defaultEntry .discReq
  discRes      := defaultEntry .discRes
  tunnelReq    := defaultEntry .tunnelReq
  tunnelRes    := defaultEntry .tunnelRes
  routingInd   := defaultEntry .routingInd
  routingLost  := defaultEntry .routingLost
  routingBusy  := defaultEntry .routingBusy

/-- REG_LOOKUP (41_dispatch.md R59): 16-bit equality against the 11 entries, no mask. -/
def regLookup (reg : Registry) (s : Half) : Option Kind :=
  Kind.all.find? fun k => reg.serviceId k == s

/-- The dispatch row of a kind, with the total length its header word holds (41_dispatch.md R60 to R70). -/
def Instr.dispatchRow (k : Kind) (totalLen : Half) : Instr :=
  match k with
  | .connReq      => .connReq totalLen
  | .connRes      => .connRes totalLen
  | .connstateReq => .connstateReq totalLen
  | .connstateRes => .connstateRes totalLen
  | .discReq      => .discReq totalLen
  | .discRes      => .discRes totalLen
  | .tunnelReq    => .tunnelReq totalLen
  | .tunnelRes    => .tunnelRes totalLen
  | .routingInd   => .routingInd totalLen
  | .routingLost  => .routingLost totalLen
  | .routingBusy  => .routingBusy totalLen

/-- Why header bytes are no dispatch row, in the order the checks are made (30_encoding.md R50; 60_exceptions.md R92). -/
inductive DecodeError where
  /-- The bytes end before a field; the count of bytes in complete fields before it (R90). -/
  | shortInput (n : Nat)
  /-- Byte 0 is not 0x06 (R84). -/
  | headerLength (b : Byte)
  /-- Byte 1 is not 0x10 (R85). -/
  | protocolVersion (b : Byte)
  /-- The identifier is no entry of the registry (R86). -/
  | unknownService (s : Half)
deriving DecidableEq, Repr

/-- The operation of the request port: all four values of `op` are defined (30_encoding.md R47). -/
def decodeRequest (r : Request) : Instr :=
  match r.op with
  | 0 => .hdrPack r.sid r.bodyLen
  | 1 => .hdrUnpack r.input
  | 2 => .pack r.kind r.payload
  | 3 => .unpack r.input

/-- The dispatch row of the first six bytes (30_encoding.md R42, R45); later bytes are body and are not read. -/
def decodeHeader (reg : Registry) (bytes : List Byte) : Except DecodeError Instr :=
  match bytes with
  | [] => .error (.shortInput 0)
  | b0 :: r0 =>
    if b0 ≠ Config.hdrLenConst then .error (.headerLength b0) else
    match r0 with
    | [] => .error (.shortInput 1)
    | b1 :: r1 =>
      if b1 ≠ Config.protoVerConst then .error (.protocolVersion b1) else
      match r1 with
      | b2 :: b3 :: b4 :: b5 :: _ =>
        match regLookup reg (be16 b2 b3) with
        | none   => .error (.unknownService (be16 b2 b3))
        | some k => .ok (Instr.dispatchRow k (be16 b4 b5))
      | _ :: _ :: _ => .error (.shortInput 4)
      | _ => .error (.shortInput 2)

/-- The decoder, total: a request port decodes by its `op`, header bytes by the registry. -/
def decode (reg : Registry) : Encoded → Except DecodeError Instr
  | .request r    => .ok (decodeRequest r)
  | .header bytes => decodeHeader reg bytes

/-- A request port whose operand wires are all zero. -/
def Request.bare (op : BitVec 2) : Request :=
  { op := op, sid := 0, bodyLen := 0, input := [], kind := 0, payload := { token := 0 } }

/-- The six header bytes of kind `k`'s row with total length `t` (30_encoding.md R42). -/
def encodeRow (reg : Registry) (k : Kind) (t : Half) : Encoded :=
  .header [Config.hdrLenConst, Config.protoVerConst, hiByte (reg.serviceId k), loByte (reg.serviceId k),
    hiByte t, loByte t]

/-- The encoder: the request port of an operation (its unused operand wires zero) or the header bytes of a row. -/
def encode (reg : Registry) : Instr → Encoded
  | .hdrPack sid bodyLen => .request { Request.bare 0 with sid := sid, bodyLen := bodyLen }
  | .hdrUnpack input     => .request { Request.bare 1 with input := input }
  | .pack k x            => .request { Request.bare 2 with kind := k, payload := x }
  | .unpack input        => .request { Request.bare 3 with input := input }
  | .connReq t           => encodeRow reg .connReq t
  | .connRes t           => encodeRow reg .connRes t
  | .connstateReq t      => encodeRow reg .connstateReq t
  | .connstateRes t      => encodeRow reg .connstateRes t
  | .discReq t           => encodeRow reg .discReq t
  | .discRes t           => encodeRow reg .discRes t
  | .tunnelReq t         => encodeRow reg .tunnelReq t
  | .tunnelRes t         => encodeRow reg .tunnelRes t
  | .routingInd t        => encodeRow reg .routingInd t
  | .routingLost t       => encodeRow reg .routingLost t
  | .routingBusy t       => encodeRow reg .routingBusy t

/-- The header bytes of a header word, bits 47:40 first (30_encoding.md R43). -/
def headerBytes (w : HeaderWord) : List Byte :=
  [w.extractLsb' 40 8, w.extractLsb' 32 8, w.extractLsb' 24 8, w.extractLsb' 16 8, w.extractLsb' 8 8,
    w.extractLsb' 0 8]

/-- The form a table word takes. A row of at most one byte is the 2-bit `op` with operand wires of zeros, and a value that
does not fit 2 bits is no op; a row of 48 bits is the header word `W`; no row has another width. -/
def placeTableWord (nbits w : Nat) : Option Encoded :=
  if nbits ≤ 8 then
    if w < 4 then some (.request (Request.bare (BitVec.ofNat 2 w))) else none
  else if nbits = 48 then
    if w < 2 ^ 48 then some (.header (headerBytes (BitVec.ofNat 48 w))) else none
  else none

/-- The instruction the decoder reads from a row's bits, numbered as spec/opcode_table.json numbers them, under the
default registry (whose identifiers the table's rows hold). -/
def decodeTableWord (nbits w : Nat) : Option Instr :=
  match placeTableWord nbits w with
  | none   => none
  | some e =>
    match decode defaultRegistry e with
    | .ok i    => some i
    | .error _ => none

end Sys2Proof
end

