-- ==== Sys2Proof/Machine/State.lean ====
section
/-! DEFINITION. The machine's state as plain data, the reasons a step can stop, and the state after reset. -/

namespace Sys2Proof.Machine

/-- The four fields of the transient header register (10_state.md R20). -/
inductive HeaderField where
  | hdrLen | version | service | totalLen
deriving DecidableEq, Repr

/-- The fields of the response port (10_state.md R24). -/
inductive RespField where
  | status | n | err | hdr | service | totalLen | kind | inst
deriving DecidableEq, Repr

/-- Why the machine stops with a fault. Each is a read the spec calls a model fault. -/
inductive Fault where
  /-- A field of `H` is read before it is written (10_state.md R20). Raised by the operations that read `H`. Safe. -/
  | headerFieldUnwritten (f : HeaderField)
  /-- The cursor is read where it holds no value (R21, R27). Raised by the operations that report it. Safe. -/
  | cursorUnwritten
  /-- `BUF` is read where it holds no value (R22, R27). Raised when the packet is formed. Safe. -/
  | bufferUnwritten
  /-- A requester reads a response field that the status does not define, or reads with no response on the port
  (R24; 92 D26). Raised by the port's read operations only, never by a step. Safe. -/
  | responseFieldAbsent (f : RespField)
  /-- A reserved status code 9 to 15 is observed (93 I11). Raised by the port's status read only. Safe. -/
  | reservedStatus (code : BitVec 4)
deriving DecidableEq, Repr

/-- Why the model gives no meaning: the refusals the spec names (00_scope.md R10, 60_exceptions.md R97), and inputs outside
the types of its oracles. The outcome itself is the refusal mark: a run stops at it, so it is kept for the whole run. -/
inductive Refusal where
  /-- An instruction whose arm has no meaning yet; no arm answers with it in the finished model. Safe. -/
  | notModelled (mnemonic : String)
  /-- PACK with a kind tag 11 to 15 (R97; 30_encoding.md R48). Raised by PACK. Safe. -/
  | reservedKindTag (k : BitVec 4)
  /-- The registry is not injective, so the instance is not well formed (R97; 10_state.md R19). Raised by every step. Safe. -/
  | registryNotInjective
  /-- A body parser reports more bytes than it was given: outside the oracle's type (41_dispatch.md R73; 92 D12). Safe. -/
  | parserOverrun
  /-- The sink reports taking more bytes than it was offered, or fewer than it has taken already: outside the oracle's type
  (20_memory.md R35; 92 D11). Safe. -/
  | sinkOverrun
  /-- The sink takes fewer bytes than offered and reports no error (93 I6). Safe. -/
  | sinkShortWrite
  /-- A dispatch entry is executed where the mux has not selected it: no transaction stands at it, or the header or the
  payload is another kind's (41_dispatch.md R60 to R70, Match). No step from a consistent state does this. Safe. -/
  | entryNotSelected
deriving DecidableEq, Repr

/-- The transient header register `H` (10_state.md R20). `none` is the spec's own 'holds no value'. -/
structure HeaderReg where
  hdrLen   : Option Byte
  version  : Option Byte
  service  : Option Half
  totalLen : Option Half
deriving DecidableEq, Repr

/-- `H` with no field holding a value: its content outside and at the start of every transaction (R20, R27). -/
def HeaderReg.empty : HeaderReg :=
  { hdrLen := none, version := none, service := none, totalLen := none }

/-- A header whose four fields all hold values (R20). -/
structure Header where
  hdrLen   : Byte
  version  : Byte
  service  : Half
  totalLen : Half
deriving DecidableEq, Repr

/-- The response port (10_state.md R24). `none` in a field is the spec's own 'holds no value'. -/
structure Response where
  status   : BitVec 4
  n        : Nat
  err      : Option ErrVal
  hdr      : Option (List Byte)
  service  : Option Half
  totalLen : Option Half
  kind     : Option (BitVec 4)
  inst     : Option Instance
deriving DecidableEq, Repr

/-- Where the transaction in flight stands. The spec's operations are atomic exchanges (00_scope.md R2), and the sink is their
one wait (60_exceptions.md R100), so between two steps of a run a transaction is in flight only while the sink has not
answered (20_memory.md R35; 70_reset_and_hazards.md R108). The two places at the mux are where a dispatch row is executed on
its own (log entry 11). -/
inductive Txn where
  /-- No transaction in flight (10_state.md R27). -/
  | idle
  /-- An UNPACK of these input bytes stands at the mux entry its header selects; the body parser has not been called. -/
  | unpackAtMux (input : List Byte)
  /-- A PACK of this payload stands at the mux entry of its kind; the body serializer has not been called. -/
  | packAtMux (k : Kind) (x : Payload)
  /-- A PACK waits on the sink, which has taken this many bytes of the packet `H ++ BUF` and has not answered. -/
  | sinkWait (accepted : Nat)
deriving DecidableEq, Repr

/-- One draw from a body serializer (41_dispatch.md R74). -/
inductive SerAnswer where
  /-- `Ok(bytes)`. -/
  | ok (bytes : List Byte)
  /-- `Err(e)`. -/
  | err (e : ErrVal)
deriving DecidableEq, Repr

/-- One draw from a body parser (41_dispatch.md R73). -/
inductive ParseAnswer where
  /-- `(m, Ok(inst))`. -/
  | ok (m : Nat) (inst : Instance)
  /-- `(m, Err(e))`. -/
  | err (m : Nat) (e : ErrVal)
deriving DecidableEq, Repr

/-- The draws an oracle has in store: those that are coming, oldest first, and the answer of every draw after them. It always
answers (92 D12, D13). -/
structure Draws (α : Type) where
  coming : List α
  after  : α
deriving DecidableEq, Repr

/-- A request as the requester issues it: the wires of the port, and how the requester changes its input during the
transaction (70_reset_and_hazards.md R105): at offset `a`, `some b` when the byte is changed to `b` and the read returns the
new value; `none` or no entry when the read returns the old one. The second part is the model's own. -/
structure Issue where
  request : Request
  race    : List (Option Byte)
deriving DecidableEq, Repr

/-- What happens at a turn of the output sink while a packet stands at it (20_memory.md R35). The spec's answers are `accept`
and `fail`; pieces before the answer, foreign bytes, an answer without an error and a reset are log entries 3, 10 and 12. -/
inductive SinkTurn where
  /-- `Accept`: all bytes offered have been written. -/
  | accept
  /-- `Fail(k, e)`: the first `k` bytes of the packet have been written, and the sink reports `e`. -/
  | fail (k : Nat) (e : ErrVal)
  /-- The sink takes `d` more bytes of the packet and has not answered (R35, R103). -/
  | taking (d : Nat)
  /-- Another transaction's bytes land in the same sink (70_reset_and_hazards.md R106); no answer yet. -/
  | foreign (bytes : List Byte)
  /-- The sink reports `k` bytes in all and no error: the whole packet is `Accept`, fewer bytes are outside the oracle's type
  (93 I6). -/
  | wrote (k : Nat)
  /-- A reset is applied while the transaction stands at the sink, in place of its answer (70_reset_and_hazards.md R103). -/
  | resetHits
deriving DecidableEq, Repr

/-- Where in one step of the machine the environment applies a reset (70_reset_and_hazards.md R103). The model's own, log
entry 10. -/
inductive ResetMoment where
  /-- No reset during the step. -/
  | low
  /-- Before the step does anything: a transaction in flight is aborted, and a request on the port is not yet accepted. -/
  | before
  /-- Right after the request on the port has been accepted, before any collaborator is called. -/
  | accepted
  /-- After the collaborators the step calls have answered, before the response is given. -/
  | answering
deriving DecidableEq, Repr

/-- A call of a collaborator: the mux's output side and the sink's (41_dispatch.md R73, R74; 20_memory.md R35). -/
inductive Call where
  /-- `BodySerialize_k(x)`. -/
  | serialize (k : Kind) (x : Payload)
  /-- `BodyParse_k(slice)`, starting from the registry's zero-valued instance of the kind. -/
  | parse (k : Kind) (zero : Instance) (slice : List Byte)
  /-- `MemWrite(P)`: the packet offered to the sink. -/
  | offer (packet : List Byte)
deriving DecidableEq, Repr

/-- The state of one HCSD instance and of what the requester, the collaborators and reset have in store for it. -/
structure State where
  /-- The registry ROM `REG` (10_state.md R18). No operation writes it. -/
  registry : Registry
  /-- `P_LEN_OVERFLOW` (00_scope.md R7). No operation writes it. -/
  lenOverflow : LenOverflow
  /-- The requests issued and not yet accepted; the head stands on the request port (R23). -/
  requests : List Issue
  /-- Where the transaction in flight stands (R27). -/
  txn : Txn
  /-- The header register `H` (R20). -/
  hdr : HeaderReg
  /-- The unpack cursor `cur` (R21). -/
  cur : Option Nat
  /-- The pack buffer `BUF` (R22). -/
  buf : Option (List Byte)
  /-- The response port (R24). -/
  resp : Option Response
  /-- The requester's slot `svc_out` (R25). -/
  svcOut : Service
  /-- The bytes the output sink has taken, in order (20_memory.md R28, R38). -/
  sink : List Byte
  /-- Model's own: the serializers' draws (R11). -/
  serDraws : Draws SerAnswer
  /-- Model's own: the parsers' draws (R11). -/
  parseDraws : Draws ParseAnswer
  /-- Model's own: the sink's coming turns (R11, R35). -/
  sinkTurns : List SinkTurn
  /-- Model's own: how the input of the transaction in flight is changed, as its `Issue` says (70_reset_and_hazards.md R105). -/
  inputRace : List (Option Byte)
  /-- Model's own: where a reset lands in each coming step (70_reset_and_hazards.md R103); none once the list ends. -/
  resetLine : List ResetMoment
  /-- Model's own: the collaborator calls made, oldest first. -/
  calls : List Call
deriving DecidableEq, Repr

/-- The machine right after reset (10_state.md R27; 70_reset_and_hazards.md R102): idle, no response, no transient register
holding a value. The registry holds the spec's default table (PRESUMED, log entry 1); the zero instances, `svcOut` and the
collaborators' answers, for which the spec gives no value, are DESIGN CHOICES (log entries 2, 5 and 3). -/
def State.reset : State where
  registry    := defaultRegistry
  lenOverflow := .refuse
  requests    := []
  txn         := .idle
  hdr         := HeaderReg.empty
  cur         := none
  buf         := none
  resp        := none
  svcOut      := { kind := .connReq, inst := { token := 0 } }
  sink        := []
  serDraws    := { coming := [], after := .ok [] }
  parseDraws  := { coming := [], after := .ok 0 { token := 0 } }
  sinkTurns   := []
  inputRace   := []
  resetLine   := []
  calls       := []

end Sys2Proof.Machine
end

