-- ==== Sys2Proof/Machine/Flags.lean ====
section
/-! DEFINITION. The block has no flags, condition codes or predicates (10_state.md R26). What stands in their place is the
4-bit status of a response (60_exceptions.md R83): its codes, and which response fields each status defines (R24). -/

namespace Sys2Proof.Machine

/-- The nine statuses (60_exceptions.md R83). -/
inductive Status where
  | ok | hdrLen | hdrVer | unknownService | bodyParse | shortInput | serialize | sinkWrite | lenOverflow
deriving DecidableEq, Repr

/-- The 4-bit code of a status; 9 to 15 are reserved and never produced (R83). -/
def Status.code : Status → BitVec 4
  | .ok             => 0
  | .hdrLen         => 1
  | .hdrVer         => 2
  | .unknownService => 3
  | .bodyParse      => 4
  | .shortInput     => 5
  | .serialize      => 6
  | .sinkWrite      => 7
  | .lenOverflow    => 8

/-- The statuses that carry a forwarded collaborator error (10_state.md R24). -/
def Status.forwardsErr : Status → Bool
  | .bodyParse | .serialize | .sinkWrite => true
  | .ok | .hdrLen | .hdrVer | .unknownService | .shortInput | .lenOverflow => false

/-- A response with a status, a count and, where there is one, a forwarded error; no op-specific result (R24, R94). -/
def Response.bare (st : Status) (n : Nat) (err : Option ErrVal) : Response :=
  { status := st.code, n := n, err := err, hdr := none, service := none, totalLen := none, kind := none, inst := none }

/-- The response of HDR_PACK on OK (R24, R53). -/
def Response.okHdrPack (bytes : List Byte) : Response :=
  { Response.bare .ok Config.hdrSize none with hdr := some bytes }

/-- The response of HDR_UNPACK on OK (R24, R54). -/
def Response.okHdrUnpack (n : Nat) (service totalLen : Half) : Response :=
  { Response.bare .ok n none with service := some service, totalLen := some totalLen }

/-- The response of PACK on OK: nothing beyond `n` (R24, R75). -/
def Response.okPack (n : Nat) : Response :=
  Response.bare .ok n none

/-- The response of UNPACK on OK (R24, R76). -/
def Response.okUnpack (n : Nat) (k : Kind) (inst : Instance) : Response :=
  { Response.bare .ok n none with kind := some k.tag, inst := some inst }

end Sys2Proof.Machine
end

