-- ==== Sys2Proof/Machine/Ops.lean ====
section
/-! DEFINITION. The named operations over the transient registers, the ports, the sink and the oracles' answers, and the one
shared operation that raises a status (the block's analogue of taking an exception, 60_exceptions.md R94). -/

namespace Sys2Proof.Machine

/-- The start of a transaction: `H`, `cur` and `BUF` hold no value and no response is on the port (10_state.md R20, R24). -/
def State.begin (s : State) : State :=
  { s with hdr := HeaderReg.empty, cur := none, buf := none, resp := none }

/-- The block accepts the request on the port, whose input may be changed as the issue says; the port then presents the next
one (R23, R95; 70_reset_and_hazards.md R105). -/
def State.accept (r : Issue) (rest : List Issue) (s : State) : State :=
  { s with requests := rest, inputRace := r.race }

/-- The oracle's next draw. -/
def Draws.head {α : Type} (d : Draws α) : α :=
  d.coming.headD d.after

/-- The draws left after the next one. -/
def Draws.tail {α : Type} (d : Draws α) : Draws α :=
  { d with coming := d.coming.tail }

/-- `H.hdr_len <- b` (R20). -/
def State.writeHdrLen (b : Byte) (s : State) : State :=
  { s with hdr := { s.hdr with hdrLen := some b } }

/-- `H.version <- b` (R20). -/
def State.writeVersion (b : Byte) (s : State) : State :=
  { s with hdr := { s.hdr with version := some b } }

/-- `H.service <- v` (R20). -/
def State.writeService (v : Half) (s : State) : State :=
  { s with hdr := { s.hdr with service := some v } }

/-- `H.total_len <- v` (R20). -/
def State.writeTotalLen (v : Half) (s : State) : State :=
  { s with hdr := { s.hdr with totalLen := some v } }

/-- `cur <- n` (R21). -/
def State.moveCur (n : Nat) (s : State) : State :=
  { s with cur := some n }

/-- `BUF <- bytes` (R22). -/
def State.fillBuf (bytes : List Byte) (s : State) : State :=
  { s with buf := some bytes }

/-- The transaction stays in flight at `t`, with no response. -/
def State.holdAt (t : Txn) (s : State) : State :=
  { s with txn := t }

/-- A serializer's draw is used up (00_scope.md R11). -/
def State.drawSer (s : State) : State :=
  { s with serDraws := s.serDraws.tail }

/-- A parser's draw is used up (R11). -/
def State.drawParse (s : State) : State :=
  { s with parseDraws := s.parseDraws.tail }

/-- A sink's turn is used up, and the sink has taken `bytes` (R11; 20_memory.md R35). -/
def State.drawSink (bytes : List Byte) (rest : List SinkTurn) (s : State) : State :=
  { s with sink := s.sink ++ bytes, sinkTurns := rest }

/-- A collaborator is called. -/
def State.logCall (c : Call) (s : State) : State :=
  { s with calls := s.calls ++ [c] }

/-- `svc_out <- (k, inst)` (10_state.md R25). -/
def State.storeSvc (k : Kind) (inst : Instance) (s : State) : State :=
  { s with svcOut := { kind := k, inst := inst } }

/-- The transaction ends with this response: the instance is idle, `H`, `cur` and `BUF` are discarded, and the interference
with this transaction's input is over (R13, R20; 60_exceptions.md R94, R95). -/
def State.respond (r : Response) (s : State) : State :=
  { s with txn := .idle, hdr := HeaderReg.empty, cur := none, buf := none, resp := some r, inputRace := [] }

/-- `raise st(n, err)`: error entry, the block's analogue of taking an exception (60_exceptions.md R94). The response port is
driven with the status, the exact count and the forwarded error; no op-specific field holds a value; `svc_out`, the ROM and
the sink are left alone. No handler, saved mode or stack exists. -/
def State.raise (st : Status) (n : Nat) (err : Option ErrVal) (s : State) : State :=
  s.respond (Response.bare st n err)

/-- `return OK(...)`. R95: this is the only return; there is no return from an error, after which the instance is as idle
as after OK. -/
def State.returnOk (r : Response) (s : State) : State :=
  s.respond r

/-- A reset (70_reset_and_hazards.md R102, R103): a transaction in flight is aborted with no response; the ports are idle and
the transient registers hold no value; `svc_out`, the ROM, the parameters and what the sink has taken stay. -/
def State.applyReset (s : State) : State :=
  { s with txn := .idle, hdr := HeaderReg.empty, cur := none, buf := none, resp := none, inputRace := [] }

/-- Where a reset lands in the next step (R103). -/
def State.moment (s : State) : ResetMoment :=
  s.resetLine.headD .low

/-- The next step's moment of the reset line is over. -/
def State.passMoment (s : State) : State :=
  { s with resetLine := s.resetLine.tail }

/-- Reads the whole of `H`; a field that holds no value is a model fault (10_state.md R20). -/
def readHeader (h : HeaderReg) : Except Fault Header :=
  match h.hdrLen with
  | none => .error (.headerFieldUnwritten .hdrLen)
  | some l =>
    match h.version with
    | none => .error (.headerFieldUnwritten .version)
    | some v =>
      match h.service with
      | none => .error (.headerFieldUnwritten .service)
      | some sv =>
        match h.totalLen with
        | none => .error (.headerFieldUnwritten .totalLen)
        | some t => .ok { hdrLen := l, version := v, service := sv, totalLen := t }

/-- The six bytes of a header in wire order (30_encoding.md R42; 20_memory.md R31). -/
def Header.bytes (h : Header) : List Byte :=
  [h.hdrLen, h.version, hiByte h.service, loByte h.service, hiByte h.totalLen, loByte h.totalLen]

/-- The packet `P = hdr ++ BUF`, no padding or trailer (20_memory.md R37). -/
def readPacket (s : State) : Except Fault (List Byte) :=
  match readHeader s.hdr with
  | .error f => .error f
  | .ok h =>
    match s.buf with
    | none => .error .bufferUnwritten
    | some body => .ok (h.bytes ++ body)

/-- Raises a status with the cursor as its count (10_state.md R21). -/
def raiseAtCursor (st : Status) (s : State) : Host.Outcome State Fault Refusal :=
  match s.cur with
  | none   => .fault .cursorUnwritten
  | some n => .next (s.raise st n none)

/-- One turn of the sink for the packet `P`, of which it has taken `accepted` bytes (20_memory.md R35, R38). With no turn
listed the sink does not answer: the transaction stays where it is, stuck (70_reset_and_hazards.md R108). A reset aborts it
with no response, and the sink keeps the bytes it has taken (R103). -/
def sinkTurn (packet : List Byte) (accepted : Nat) (s : State) : Host.Outcome State Fault Refusal :=
  match s.sinkTurns with
  | [] => .next (s.holdAt (.sinkWait accepted))
  | .taking d :: rest =>
    if accepted + d ≤ packet.length then
      .next ((s.drawSink ((packet.drop accepted).take d) rest).holdAt (.sinkWait (accepted + d)))
    else .refused .sinkOverrun
  | .foreign bytes :: rest => .next ((s.drawSink bytes rest).holdAt (.sinkWait accepted))
  | .accept :: rest =>
    .next ((s.drawSink (packet.drop accepted) rest).returnOk (Response.okPack packet.length))
  | .fail k e :: rest =>
    if accepted ≤ k ∧ k ≤ packet.length then
      .next ((s.drawSink ((packet.drop accepted).take (k - accepted)) rest).raise .sinkWrite k (some e))
    else .refused .sinkOverrun
  | .wrote k :: rest =>
    if k = packet.length then
      .next ((s.drawSink (packet.drop accepted) rest).returnOk (Response.okPack packet.length))
    else if accepted ≤ k ∧ k < packet.length then .refused .sinkShortWrite
    else .refused .sinkOverrun
  | .resetHits :: rest => .next (s.drawSink [] rest).applyReset

/-- A PACK that waits on the sink takes the sink's next turn. -/
def waitOnSink (accepted : Nat) (s : State) : Host.Outcome State Fault Refusal :=
  match readPacket s with
  | .error f => .fault f
  | .ok p    => sinkTurn p accepted s

/-- A response field that holds no value cannot be read (10_state.md R24; 92 D26). -/
def present {α : Type} (f : RespField) : Option α → Except Fault α
  | none   => .error (.responseFieldAbsent f)
  | some a => .ok a

/-- The requester reads the status; observing a reserved code is a fault (93 I11). -/
def readStatus (s : State) : Except Fault (BitVec 4) :=
  match s.resp with
  | none   => .error (.responseFieldAbsent .status)
  | some r => if r.status.toNat ≤ 8 then .ok r.status else .error (.reservedStatus r.status)

/-- The requester reads the count `n`. -/
def readCount (s : State) : Except Fault Nat :=
  present .n (s.resp.map Response.n)

/-- The requester reads the forwarded error. -/
def readErr (s : State) : Except Fault ErrVal :=
  present .err (s.resp.bind Response.err)

/-- The requester reads HDR_PACK's header. -/
def readHdr (s : State) : Except Fault (List Byte) :=
  present .hdr (s.resp.bind Response.hdr)

/-- The requester reads HDR_UNPACK's service identifier. -/
def readService (s : State) : Except Fault Half :=
  present .service (s.resp.bind Response.service)

/-- The requester reads HDR_UNPACK's total length. -/
def readTotalLen (s : State) : Except Fault Half :=
  present .totalLen (s.resp.bind Response.totalLen)

/-- The requester reads UNPACK's kind tag. -/
def readKind (s : State) : Except Fault (BitVec 4) :=
  present .kind (s.resp.bind Response.kind)

/-- The requester reads UNPACK's instance. -/
def readInst (s : State) : Except Fault Instance :=
  present .inst (s.resp.bind Response.inst)

end Sys2Proof.Machine
end

