-- ==== Sys2Proof/Machine/Operands.lean ====
section
/-! DEFINITION. The operand forms: reads of the input byte sequence (20_memory.md R30, R33, R34), under interference with the
input (70_reset_and_hazards.md R105), and the body slice. -/

namespace Sys2Proof.Machine

/-- The bytes the reads of an input return. Each offset gives the requester's byte, or, where the requester has changed it
during the transaction and the read returns the new value, the new byte (R105; I13). DESIGN CHOICE, log entry 9: a change
races byte values only, and the length `L` of the input stays as it was; the spec does not say whether it may change. -/
def seenInput (race : List (Option Byte)) (input : List Byte) : List Byte :=
  match input, race with
  | [], _                  => []
  | bs, []                 => bs
  | b :: bs, none :: rs    => b :: seenInput rs bs
  | _ :: bs, some b' :: rs => b' :: seenInput rs bs

/-- `MemRead(a, 1)`; `none` when the byte is not present (20_memory.md R30, R33). -/
def memRead8 (input : List Byte) (a : Nat) : Option Byte :=
  input[a]?

/-- `MemRead(a, 2)`, big-endian; `none` when not both bytes are present: no partial field is read (R30, R33; 92 D6). -/
def memRead16 (input : List Byte) (a : Nat) : Option Half :=
  match input[a]?, input[a + 1]? with
  | some hi, some lo => some (be16 hi lo)
  | _, _ => none

/-- The body slice `in[6..)`, empty when no byte follows the header (00_scope.md R9; 20_memory.md R36). -/
def bodySlice (input : List Byte) : List Byte :=
  input.drop Config.hdrSize

/-- The input space as (offset, byte) cells: every offset below the length holds a byte, no other offset exists (R28). -/
def inputCells (input : List Byte) : List Host.Cell :=
  input.zipIdx.map fun p => (p.2, p.1)

/-- Cells in canonical form: addresses strictly rising. -/
def Memory.wf : List Host.Cell → Bool
  | [] => true
  | [_] => true
  | c :: d :: rest => decide (c.1 < d.1) && Memory.wf (d :: rest)

end Sys2Proof.Machine
end

