-- ==== Sys2Proof/Machine/HeaderCodec.lean ====
section
/-! DEFINITION. The Header Codec: HDR_PACK and HDR_UNPACK (40_header_codec.md R53 to R57). -/

namespace Sys2Proof.Machine

/-- HDR_PACK's body (40_header_codec.md R53): `none` is LEN_OVERFLOW, else `H` holds the header. The identifier is not
checked against the registry (92 D10); under WRAP the length is taken modulo 2^16. -/
def buildHeader (sid : Half) (bodyLen : Nat) (s : State) : Option State :=
  let t := bodyLen + Config.hdrSize
  if t > 0xFFFF ∧ s.lenOverflow = .refuse then none
  else
    some ((((s.writeHdrLen Config.hdrLenConst).writeVersion Config.protoVerConst).writeService sid).writeTotalLen
      (BitVec.ofNat 16 t))

/-- The meaning of HDR_PACK (R53, R91). -/
def execHdrPack (sid : Half) (bodyLen : Nat) (s : State) : Host.Outcome State Fault Refusal :=
  match buildHeader sid bodyLen s.begin with
  | none    => .next (s.begin.raise .lenOverflow 0 none)
  | some s1 =>
    match readHeader s1.hdr with
    | .error f => .fault f
    | .ok h    => .next (s1.returnOk (Response.okHdrPack h.bytes))

/-- What HDR_UNPACK's reads come to: a status to raise at the cursor, or all four fields read and accepted. -/
inductive HeaderScan where
  | stop (st : Status) (s : State)
  | done (s : State)

/-- HDR_UNPACK's reads and checks (40_header_codec.md R54): offset order, each constant compared whole as soon as its byte is
read (R55), the cursor moved after each complete field (10_state.md R21), the identifier and the total length not judged
(R56, R57). A read that finds its bytes missing stops with SHORT_INPUT at the cursor (60_exceptions.md R90). -/
def scanHeader (input : List Byte) (s : State) : HeaderScan :=
  let s0 := s.moveCur 0
  match memRead8 input 0 with
  | none    => .stop .shortInput s0
  | some b0 =>
    let s1 := (s0.writeHdrLen b0).moveCur 1
    if b0 ≠ Config.hdrLenConst then .stop .hdrLen s1 else
    match memRead8 input 1 with
    | none    => .stop .shortInput s1
    | some b1 =>
      let s2 := (s1.writeVersion b1).moveCur 2
      if b1 ≠ Config.protoVerConst then .stop .hdrVer s2 else
      match memRead16 input 2 with
      | none     => .stop .shortInput s2
      | some sid =>
        let s4 := (s2.writeService sid).moveCur 4
        match memRead16 input 4 with
        | none   => .stop .shortInput s4
        | some t => .done ((s4.writeTotalLen t).moveCur 6)

/-- The meaning of HDR_UNPACK (R54): on OK the count is the cursor and the results are what `H` holds. -/
def execHdrUnpack (input : List Byte) (s : State) : Host.Outcome State Fault Refusal :=
  match scanHeader (seenInput s.inputRace input) s.begin with
  | .stop st s1 => raiseAtCursor st s1
  | .done s1 =>
    match readHeader s1.hdr with
    | .error f => .fault f
    | .ok h =>
      match s1.cur with
      | none   => .fault .cursorUnwritten
      | some n => .next (s1.returnOk (Response.okHdrUnpack n h.service h.totalLen))

end Sys2Proof.Machine
end

