-- ==== Sys2Proof/Machine/Mux.lean ====
section
/-! DEFINITION. The dispatch multiplexer: routing a body to `BodyParse_k`, a payload to `BodySerialize_k` and the packet to
the sink, and the meanings of the 11 dispatch entries (41_dispatch.md R59 to R74). -/

namespace Sys2Proof.Machine

/-- The UNPACK side of the entry of kind `k` (41_dispatch.md R60 to R70, R73; 42_packet.md R76, R77): the slice `in[6..)` goes
to `BodyParse_k`, whose draw ends the transaction. -/
def routeToParser (k : Kind) (input : List Byte) (s : State) : Host.Outcome State Fault Refusal :=
  let slice := bodySlice (seenInput s.inputRace input)
  let call := Call.parse k (s.registry.entry k).zero slice
  match s.parseDraws.head with
  | .ok m inst =>
    if m ≤ slice.length then
      .next ((((s.drawParse.logCall call).moveCur (Config.hdrSize + m)).storeSvc k inst).returnOk
        (Response.okUnpack (Config.hdrSize + m) k inst))
    else .refused .parserOverrun
  | .err m e =>
    if m ≤ slice.length then
      .next (((s.drawParse.logCall call).moveCur (Config.hdrSize + m)).raise .bodyParse (Config.hdrSize + m) (some e))
    else .refused .parserOverrun

/-- The packet `H ++ BUF` is offered to the sink, which takes its first turn (42_packet.md R75; 20_memory.md R35). -/
def offerPacket (s : State) : Host.Outcome State Fault Refusal :=
  match readPacket s with
  | .error f => .fault f
  | .ok p    => sinkTurn p 0 (s.logCall (.offer p))

/-- The PACK side of the entry of kind `k` (41_dispatch.md R60 to R70, R74; 42_packet.md R75, R79): the payload goes to
`BodySerialize_k`, and a header with `REG[k]` in bytes 2-3 goes before its bytes. -/
def routeToSerializer (k : Kind) (x : Payload) (s : State) : Host.Outcome State Fault Refusal :=
  match s.serDraws.head with
  | .err e => .next ((s.drawSer.logCall (.serialize k x)).raise .serialize 0 (some e))
  | .ok bytes =>
    let s1 := (s.drawSer.logCall (.serialize k x)).fillBuf bytes
    match buildHeader (s1.registry.serviceId k) bytes.length s1 with
    | none    => .next (s1.raise .lenOverflow 0 none)
    | some s2 => offerPacket s2

/-- `W[47:16]` of kind `k`'s row: 06, 10, `REG[k]`; `W[15:0]` is not examined (30_encoding.md R45). -/
def headerSelects (reg : Registry) (k : Kind) (h : Header) : Bool :=
  h.hdrLen == Config.hdrLenConst && h.version == Config.protoVerConst && h.service == reg.serviceId k

/-- The entry of kind `k`, in the direction of the transaction that stands at the mux (41_dispatch.md section 2). An UNPACK
must carry this entry's header, a PACK a payload of this kind. -/
def dispatchEntry (k : Kind) (s : State) : Host.Outcome State Fault Refusal :=
  match s.txn with
  | .unpackAtMux input =>
    match readHeader s.hdr with
    | .error f => .fault f
    | .ok h    => if headerSelects s.registry k h then routeToParser k input s else .refused .entryNotSelected
  | .packAtMux k' x => if k' = k then routeToSerializer k x s else .refused .entryNotSelected
  | .idle => .refused .entryNotSelected
  | .sinkWait _ => .refused .entryNotSelected

/-- CONN_REQ (41_dispatch.md R60). The total length is not examined, here and in every entry (R45, R56). -/
def execConnReq (_totalLen : Half) (s : State) : Host.Outcome State Fault Refusal := dispatchEntry .connReq s

/-- CONN_RES (R61). -/
def execConnRes (_totalLen : Half) (s : State) : Host.Outcome State Fault Refusal := dispatchEntry .connRes s

/-- CONNSTATE_REQ (R62). -/
def execConnstateReq (_totalLen : Half) (s : State) : Host.Outcome State Fault Refusal := dispatchEntry .connstateReq s

/-- CONNSTATE_RES (R63). -/
def execConnstateRes (_totalLen : Half) (s : State) : Host.Outcome State Fault Refusal := dispatchEntry .connstateRes s

/-- DISC_REQ (R64). -/
def execDiscReq (_totalLen : Half) (s : State) : Host.Outcome State Fault Refusal := dispatchEntry .discReq s

/-- DISC_RES (R65). -/
def execDiscRes (_totalLen : Half) (s : State) : Host.Outcome State Fault Refusal := dispatchEntry .discRes s

/-- TUNNEL_REQ (R66). -/
def execTunnelReq (_totalLen : Half) (s : State) : Host.Outcome State Fault Refusal := dispatchEntry .tunnelReq s

/-- TUNNEL_RES (R67). -/
def execTunnelRes (_totalLen : Half) (s : State) : Host.Outcome State Fault Refusal := dispatchEntry .tunnelRes s

/-- ROUTING_IND (R68). -/
def execRoutingInd (_totalLen : Half) (s : State) : Host.Outcome State Fault Refusal := dispatchEntry .routingInd s

/-- ROUTING_LOST (R69). -/
def execRoutingLost (_totalLen : Half) (s : State) : Host.Outcome State Fault Refusal := dispatchEntry .routingLost s

/-- ROUTING_BUSY (R70). -/
def execRoutingBusy (_totalLen : Half) (s : State) : Host.Outcome State Fault Refusal := dispatchEntry .routingBusy s

end Sys2Proof.Machine
end

