-- ==== Sys2Proof/Machine/Packet.lean ====
section
/-! DEFINITION. The Packer and the Unpacker: PACK and UNPACK (42_packet.md R75 to R80). -/

namespace Sys2Proof.Machine

/-- The meaning of PACK (42_packet.md R75, R93): a reserved tag is refused (60_exceptions.md R97), else the payload goes to
its kind's entry. -/
def execPack (k : BitVec 4) (x : Payload) (s : State) : Host.Outcome State Fault Refusal :=
  match Kind.ofTag k with
  | none      => .refused (.reservedKindTag k)
  | some kind => routeToSerializer kind x s.begin

/-- The meaning of UNPACK (42_packet.md R76, R92): the header is read and checked, its identifier looked up, and the body
goes to the kind's entry. -/
def execUnpack (input : List Byte) (s : State) : Host.Outcome State Fault Refusal :=
  match scanHeader (seenInput s.inputRace input) s.begin with
  | .stop st s1 => raiseAtCursor st s1
  | .done s1 =>
    match readHeader s1.hdr with
    | .error f => .fault f
    | .ok h =>
      match regLookup s1.registry h.service with
      | none   => raiseAtCursor .unknownService s1
      | some k => routeToParser k input s1

end Sys2Proof.Machine
end

