-- ==== Sys2Proof/Machine/Dispatch.lean ====
section
/-! DEFINITION. The step of one instruction: one arm per constructor, each a direct call of its meaning. -/

namespace Sys2Proof.Machine

/-- The meaning of every row of spec/opcode_table.json. -/
def exec (i : Instr) (s : State) : Host.Outcome State Fault Refusal :=
  match i with
  | .hdrPack sid bodyLen => Sys2Proof.Machine.execHdrPack sid bodyLen s
  | .hdrUnpack input => Sys2Proof.Machine.execHdrUnpack input s
  | .pack k x => Sys2Proof.Machine.execPack k x s
  | .unpack input => Sys2Proof.Machine.execUnpack input s
  | .connReq totalLen => Sys2Proof.Machine.execConnReq totalLen s
  | .connRes totalLen => Sys2Proof.Machine.execConnRes totalLen s
  | .connstateReq totalLen => Sys2Proof.Machine.execConnstateReq totalLen s
  | .connstateRes totalLen => Sys2Proof.Machine.execConnstateRes totalLen s
  | .discReq totalLen => Sys2Proof.Machine.execDiscReq totalLen s
  | .discRes totalLen => Sys2Proof.Machine.execDiscRes totalLen s
  | .tunnelReq totalLen => Sys2Proof.Machine.execTunnelReq totalLen s
  | .tunnelRes totalLen => Sys2Proof.Machine.execTunnelRes totalLen s
  | .routingInd totalLen => Sys2Proof.Machine.execRoutingInd totalLen s
  | .routingLost totalLen => Sys2Proof.Machine.execRoutingLost totalLen s
  | .routingBusy totalLen => Sys2Proof.Machine.execRoutingBusy totalLen s

end Sys2Proof.Machine
end

