-- ==== Sys2Proof/Machine/Fetch.lean ====
section
/-! DEFINITION. What a step runs next. The block fetches no instructions from memory (10_state.md R15): an idle instance takes
its next operation from the request port, and a transaction that stands at the mux takes its dispatch entry from the header
register or, on PACK, from its kind. -/

namespace Sys2Proof.Machine

/-- What a step does: execute an instruction on a state, or answer without one. -/
inductive Fetch where
  | run (i : Instr) (s : State)
  | answer (o : Host.Outcome State Fault Refusal)

/-- The next operation of an idle instance (R95: it accepts the next request); with none on the port it stays idle. -/
def fetchRequest (s : State) : Fetch :=
  match s.requests with
  | []        => .answer (.next s)
  | r :: rest => .run (decodeRequest r.request) (s.accept r rest)

/-- An UNPACK whose header no row accepts ends with the error of its class, with the count R83 gives it (30_encoding.md R50;
41_dispatch.md R71; 60_exceptions.md R84, R85, R86, R90). -/
def raiseUnaccepted (e : DecodeError) (s : State) : State :=
  match e with
  | .shortInput n      => s.raise .shortInput n none
  | .headerLength _    => s.raise .hdrLen 1 none
  | .protocolVersion _ => s.raise .hdrVer 2 none
  | .unknownService _  => s.raise .unknownService Config.hdrSize none

/-- The dispatch entry that the header register of an UNPACK at the mux selects (30_encoding.md R45); with a header that
selects none, the UNPACK ends with its error (R50, R72). -/
def fetchEntry (s : State) : Fetch :=
  match readHeader s.hdr with
  | .error f => .answer (.fault f)
  | .ok h =>
    match decodeHeader s.registry h.bytes with
    | .error e => .answer (.next (raiseUnaccepted e s))
    | .ok i    => .run i s

/-- What the next step does. A PACK at the mux has no header yet, so its entry is run with a total length of 0, which no
entry examines. -/
def fetch (s : State) : Fetch :=
  match s.txn with
  | .idle              => fetchRequest s
  | .unpackAtMux _     => fetchEntry s
  | .packAtMux k _     => .run (Instr.dispatchRow k 0) s
  | .sinkWait accepted => .answer (waitOnSink accepted s)

/-- Places an instruction where the next step takes it from: a request at the head of the port of an idle instance, or header
bytes in `H` with an UNPACK of those bytes at the mux. Header bytes that end before a field leave that field unwritten. -/
def placeEncoded (e : Encoded) (s : State) : State :=
  match e with
  | .request r => { s with txn := .idle, requests := { request := r, race := [] } :: s.requests, resetLine := [] }
  | .header bytes =>
    { s with
        txn := .unpackAtMux bytes
        hdr := { hdrLen := memRead8 bytes 0, version := memRead8 bytes 1, service := memRead16 bytes 2,
                 totalLen := memRead16 bytes 4 }
        cur := some Config.hdrSize
        buf := none
        resp := none
        resetLine := [] }

end Sys2Proof.Machine
end

