-- ==== Sys2Proof/Machine/Reset.lean ====
section
/-! DEFINITION. One step under the reset line: an exchange as `fetch` and `exec` give it, or a reset that lands before it,
right after its request is accepted, or before its response (70_reset_and_hazards.md R102, R103). -/

namespace Sys2Proof.Machine

/-- A step in which no reset lands: what `fetch` says, the fetched instruction executed by `exec`. -/
def exchange (s : State) : Host.Outcome State Fault Refusal :=
  match fetch s with
  | .run i s1 => exec i s1
  | .answer o => o

/-- A reset right after the request on the port is accepted: the transaction is aborted with no response, and no collaborator
has been called (R103). A request that is not well formed is refused and starts no transaction (60_exceptions.md R97). With no
request to accept, the reset lands on the instance as it stands. -/
def abortAccepted (s : State) : Host.Outcome State Fault Refusal :=
  match fetch s with
  | .run i s1 => if i.wellFormed then .next s1.applyReset else exec i s1
  | .answer _ => .next s.applyReset

/-- A reset before the response (R103): what the collaborators have been given, the sink's bytes among it, stays with them;
there is no response, and `svc_out`, which only an UNPACK that ends with OK writes (42_packet.md R78), holds what it held. -/
def abortAnswering (s : State) (o : Host.Outcome State Fault Refusal) : Host.Outcome State Fault Refusal :=
  match o with
  | .next t    => .next { t with svcOut := s.svcOut }.applyReset
  | .fault f   => .fault f
  | .refused r => .refused r

/-- One step. An instance whose registry is not injective is refused (R97; 10_state.md R19); else a reset lands where the line
says, if it says so (R103). -/
def takeStep (s : State) : Host.Outcome State Fault Refusal :=
  if !s.registry.injective then .refused .registryNotInjective
  else
    match s.moment with
    | .low       => exchange s.passMoment
    | .before    => .next s.passMoment.applyReset
    | .accepted  => abortAccepted s.passMoment
    | .answering => abortAnswering s (exchange s.passMoment)

end Sys2Proof.Machine
end

