-- ==== Sys2Proof/Machine/Step.lean ====
section
/-! DEFINITION. One step of the machine, and the placing of an instruction where it fetches its next one. -/

namespace Sys2Proof.Machine

/-- One step: what `fetch` says, the fetched instruction executed by `exec`, unless a reset lands in it. -/
def step (s : State) : Host.Outcome State Fault Refusal :=
  takeStep s

/-- `s` with the instruction of a table word where the next step takes it from. An op row stands on the request port with
operands of zeros; a dispatch row stands in the header register of an UNPACK at the mux. Bits that are no row change
nothing. A program comes from outside the machine, as requests (log entry 4). -/
def State.withFetchWord (s : State) (nbits w : Nat) : State :=
  match placeTableWord nbits w with
  | none   => s
  | some e => placeEncoded e s

end Sys2Proof.Machine
end

