-- ==== Sys2Proof/Safety.lean ====
section
/-! DEFINITION. What a good response, a consistent state and a safe step are, in the words the statements use. -/

namespace Sys2Proof.Machine

/-- A response whose fields hold values exactly where the spec says: a code 0 to 8 (60_exceptions.md R83); an error exactly
for BODY_PARSE, SERIALIZE and SINK_WRITE; no result unless OK; and on OK the results of one operation (10_state.md R24),
where a kind tag names a kind and a header has six bytes. -/
def Response.wellFormed (r : Response) : Bool :=
  decide (r.status.toNat ≤ 8) &&
  (r.err.isSome == (r.status == 4 || r.status == 6 || r.status == 7)) &&
  (match r.hdr, r.service, r.totalLen, r.kind, r.inst with
   | none, none, none, none, none              => true
   | some bytes, none, none, none, none        => r.status == 0 && bytes.length == 6 && r.n == 6
   | none, some _, some _, none, none          => r.status == 0 && r.n == 6
   | none, none, none, some tag, some _        => r.status == 0 && tagNamesKind tag && decide (6 ≤ r.n)
   | _, _, _, _, _                             => false)

/-- What the transient registers hold where a transaction stands (10_state.md R20, R21, R22, R27; 20_memory.md R41):
nothing outside a transaction, whose input no one can change any more (R13); at the mux on UNPACK an accepted header, the one read from the input, and the cursor 6; at the
mux on PACK nothing; waiting on the sink, a header of a registered kind and `BUF`, with no more taken than the packet holds. -/
def State.txnConsistent (s : State) : Bool :=
  match s.txn with
  | .idle => s.hdr == HeaderReg.empty && s.cur == none && s.buf == none && s.inputRace == []
  | .packAtMux _ _ => s.hdr == HeaderReg.empty && s.cur == none && s.buf == none && s.resp == none
  | .unpackAtMux input =>
    match readHeader s.hdr with
    | .error _ => false
    | .ok h =>
      h.bytes == (seenInput s.inputRace input).take 6 && h.hdrLen == 0x06 && h.version == 0x10 &&
      (regLookup s.registry h.service).isSome && s.cur == some 6 && s.buf == none && s.resp == none
  | .sinkWait accepted =>
    match readHeader s.hdr, s.buf with
    | .ok h, some body =>
      h.hdrLen == 0x06 && h.version == 0x10 && (regLookup s.registry h.service).isSome &&
      h.totalLen == BitVec.ofNat 16 (body.length + 6) && decide (accepted ≤ 6 + body.length) &&
      s.cur == none && s.resp == none
    | _, _ => false

/-- A consistent state: the invariant of the machine. -/
def State.consistent (s : State) : Bool :=
  s.txnConsistent && (match s.resp with | none => true | some r => r.wellFormed)

/-- `n` steps of the machine, stopping at the first fault or refusal: `Host.Core.run` in the machine's own types. -/
def runSteps : Nat → State → Host.Outcome State Fault Refusal
  | 0, s => .next s
  | n + 1, s =>
    match step s with
    | .next t    => runSteps n t
    | .fault f   => .fault f
    | .refused r => .refused r

/-- A run of `n` steps is safe when it does not fault (10_state.md R20: the rules never read a field that holds no value). -/
def State.safeFor (s : State) (n : Nat) : Prop :=
  ∀ f, runSteps n s ≠ .fault f

end Sys2Proof.Machine
end

