-- ==== Sys2Proof/Certificates/Slice0/Obligations.lean ====
section
/-! DEFINITION. The statements for the provers. Result statements give the whole next state as an update of the state before,
so that each is at once the instruction's result, its completion and its frame: a field the update does not name is
unchanged, the sink's bytes among them. -/

namespace Sys2Proof.Claims

open Sys2Proof.Machine

/-- The state after a transaction that ends with response `r` and does nothing else: the instance is idle, `H`, `cur` and `BUF`
hold no value (R13, R20, R94, R95); every other field is as before. -/
def ended (s : State) (r : Response) : State :=
  { s with txn := .idle, hdr := { hdrLen := none, version := none, service := none, totalLen := none }, cur := none,
           buf := none, inputRace := [], resp := some r }

/-- A response with a status code, a count, and no other field holding a value (R24). -/
def plain (status : BitVec 4) (n : Nat) : Response :=
  { status := status, n := n, err := none, hdr := none, service := none, totalLen := none, kind := none, inst := none }

/-- A response that forwards a collaborator's error (R24). -/
def forwarding (status : BitVec 4) (n : Nat) (e : ErrVal) : Response :=
  { plain status n with err := some e }

/-- HDR_UNPACK's OK response: n = 6 and both 16-bit fields (R54). -/
def okFields (service totalLen : Half) : Response :=
  { plain 0 6 with service := some service, totalLen := some totalLen }

/-- UNPACK's OK response (R76). -/
def okInstance (n : Nat) (k : Kind) (inst : Instance) : Response :=
  { plain 0 n with kind := some k.tag, inst := some inst }

/-- The six bytes `[0x06, 0x10, sid[15:8], sid[7:0], t[15:8], t[7:0]]` of R53, with `t = (B + 6) mod 2^16`. -/
def headerOf (sid : Half) (bodyLen : Nat) : List Byte :=
  [0x06, 0x10, sid.extractLsb' 8 8, sid.extractLsb' 0 8,
   (BitVec.ofNat 16 (bodyLen + 6)).extractLsb' 8 8, (BitVec.ofNat 16 (bodyLen + 6)).extractLsb' 0 8]

/-- The packet `P = hdr ++ BUF` of R37 for a payload of kind `k` with these body bytes. -/
def packetOf (reg : Registry) (k : Kind) (body : List Byte) : List Byte :=
  headerOf (reg.serviceId k) body.length ++ body

/-- The length fits the 16-bit total length, or `P_LEN_OVERFLOW` is WRAP (R53). -/
def lengthTaken (s : State) (bodyLen : Nat) : Prop :=
  bodyLen ≤ 65529 ∨ s.lenOverflow = .wrap

/-- The eleven dispatch rows of spec/opcode_table.json, each with its kind (R60 to R70). -/
def rows : List ((Half → Instr) × Kind) :=
  [(.connReq, .connReq), (.connRes, .connRes), (.connstateReq, .connstateReq), (.connstateRes, .connstateRes),
   (.discReq, .discReq), (.discRes, .discRes), (.tunnelReq, .tunnelReq), (.tunnelRes, .tunnelRes),
   (.routingInd, .routingInd), (.routingLost, .routingLost), (.routingBusy, .routingBusy)]

/-- What HDR_UNPACK answers for the bytes its reads return (R54), by the shape of the bytes. -/
def unpackedHeader : List Byte → Response
  | [] => plain 5 0
  | b0 :: r0 =>
    if b0 ≠ 0x06 then plain 1 1 else
    match r0 with
    | [] => plain 5 1
    | b1 :: r1 =>
      if b1 ≠ 0x10 then plain 2 2 else
      match r1 with
      | b2 :: b3 :: b4 :: b5 :: _ => okFields (b2 ++ b3) (b4 ++ b5)
      | _ :: _ :: _ => plain 5 4
      | _ => plain 5 2

/-- The header register holding an accepted header: 06, 10, an identifier and a total length. -/
def heldHeader (service totalLen : Half) : HeaderReg :=
  { hdrLen := some 0x06, version := some 0x10, service := some service, totalLen := some totalLen }

/-- PACK of a payload of kind `k` whose body stands serialized and framed at the sink, `acc` bytes of the packet taken: `H`
holds the header of R53 and `BUF` the body (R22, R75); the serializer and the sink have been called. -/
def atSink (s : State) (k : Kind) (x : Payload) (body : List Byte) (acc : Nat) : State :=
  { s with txn := .sinkWait acc, hdr := heldHeader (s.registry.serviceId k) (BitVec.ofNat 16 (body.length + 6)),
           buf := some body, serDraws := s.serDraws.tail,
           calls := s.calls ++ [.serialize k x, .offer (packetOf s.registry k body)] }

/-- The state of an UNPACK of `input` at the mux, its accepted header in `H` and the cursor at 6 (R21, R76). -/
def unpackAtMux (s : State) (input : List Byte) (service totalLen : Half) : State :=
  { s with txn := .unpackAtMux input, hdr := heldHeader service totalLen, cur := some 6, buf := none, resp := none }

/-- The state of a PACK of a payload of kind `k` at the mux: no header, cursor or `BUF` yet (R20, R75). -/
def packAtMux (s : State) (k : Kind) (x : Payload) : State :=
  { s with txn := .packAtMux k x, hdr := HeaderReg.empty, cur := none, buf := none, resp := none }

/-- The state a reset leaves: no transaction, no transient value and no response (R27, R102, R103). -/
def afterReset (s : State) : State :=
  { s with txn := .idle, hdr := HeaderReg.empty, cur := none, buf := none, resp := none, inputRace := [] }

/-- An instance that can take `n` steps of its own: an injective registry (R19) and no reset in these steps (R103). -/
def running (n : Nat) (s : State) : Prop :=
  s.registry.injective = true ∧ ∀ m ∈ s.resetLine.take n, m = .low

/-- The state with the reset line's moments of `n` steps over (the line is the model's own, log entry 10). -/
def passed (n : Nat) (s : State) : State :=
  { s with resetLine := s.resetLine.drop n }

/-- A state in which PACK waits on the sink for the packet `P`, of which the sink has taken `acc` bytes (R108). -/
def waitingOnSink (s : State) (packet : List Byte) (acc : Nat) : Prop :=
  s.txn = .sinkWait acc ∧ readPacket s = .ok packet ∧ acc ≤ packet.length

end Sys2Proof.Claims

open Sys2Proof Sys2Proof.Machine Sys2Proof.Claims

/-! ### Encodings -/

/-- Every well-formed instruction, with every operand, decodes from its own encoding (R42, R47, R48, R49). -/
def Obligations.DecodeInvertsEncode : Prop :=
  ∀ (reg : Registry) (i : Instr), reg.injective = true → i.wellFormed = true → decode reg (encode reg i) = .ok i

/-- Six header bytes that decode are the encoding of what they decode to (R42, R44): no two headers mean one instruction. -/
def Obligations.EncodeInvertsHeaderDecode : Prop :=
  ∀ (reg : Registry) (bytes : List Byte) (i : Instr), bytes.length = 6 →
    decode reg (.header bytes) = .ok i → encode reg i = .header bytes

/-- R45: a header is accepted exactly when its three fields hold, and is kind k's row exactly when
`(W & 0xFFFFFFFF0000) = 0x0610 ‖ REG[k] ‖ 0x0000`. -/
def Obligations.HeaderAcceptedByMatchAndMask : Prop :=
  ∀ (reg : Registry) (b0 b1 b2 b3 b4 b5 : Byte) (body : List Byte), reg.injective = true →
    ((∃ i, decode reg (.header (b0 :: b1 :: b2 :: b3 :: b4 :: b5 :: body)) = .ok i) ↔
      b0 = 0x06 ∧ b1 = 0x10 ∧ ∃ k, (b2 ++ b3 : BitVec 16) = reg.serviceId k) ∧
    ∀ p ∈ rows,
      ((∃ t, decode reg (.header (b0 :: b1 :: b2 :: b3 :: b4 :: b5 :: body)) = .ok (p.1 t)) ↔
        (b0 ++ b1 ++ b2 ++ b3 ++ b4 ++ b5 : BitVec 48) &&& 0xFFFFFFFF0000#48 =
          (0x0610#16 ++ reg.serviceId p.2 ++ 0x0000#16 : BitVec 48))

/-- A few table words. That a bare op word stands for operands of zeros is the model's choice (log entry 14); R47 gives the op
values only. The header words are written out from R42 with the default table of R49 (PRESUMED, log entry 1). -/
def Obligations.TableWordsDecode : Prop :=
  decodeTableWord 8 0 = some (.hdrPack 0 0) ∧ decodeTableWord 8 1 = some (.hdrUnpack []) ∧
  decodeTableWord 8 2 = some (.pack 0 { token := 0 }) ∧ decodeTableWord 8 3 = some (.unpack []) ∧
  decodeTableWord 48 0x061002050008 = some (.connReq 8) ∧ decodeTableWord 48 0x06100421000A = some (.tunnelRes 10) ∧
  decodeTableWord 48 0x06100532FFFF = some (.routingBusy 0xFFFF) ∧ decodeTableWord 48 0x061005020006 = none

/-- R59: under an injective registry the lookup finds the unique kind whose entry equals all 16 bits, and NONE when no entry
does. -/
def Obligations.LookupFindsUniqueEntry : Prop :=
  ∀ (reg : Registry) (v : Half), reg.injective = true →
    (∀ k, regLookup reg v = some k ↔ reg.serviceId k = v) ∧
    (regLookup reg v = none ↔ ∀ k, reg.serviceId k ≠ v)

/-- R30 and R31: a byte read is the byte; a 16-bit read is `(in[a] << 8) | in[a+1]`; a 16-bit value packs high byte first. -/
def Obligations.FieldsAreBigEndian : Prop :=
  (∀ (input : List Byte) (a : Nat), memRead8 input a = input[a]?) ∧
  (∀ (input : List Byte) (a : Nat) (h l : Byte), input[a]? = some h → input[a + 1]? = some l →
    memRead16 input a = some ((h.setWidth 16 <<< 8) ||| l.setWidth 16)) ∧
  (∀ (hd : Header), hd.bytes =
    [hd.hdrLen, hd.version, hd.service.extractLsb' 8 8, hd.service.extractLsb' 0 8,
     hd.totalLen.extractLsb' 8 8, hd.totalLen.extractLsb' 0 8])

/-! ### The step -/

/-- The step of an idle instance executes the operation its request port decodes to, the request accepted from the port
(R15, R23, R47, R95). The changes of the request's input, if any, are those of its issue (R105; log entry 9). A step in which
a reset lands is ResetAbortsTransaction and ResetBeforeResponseAborts. -/
def Obligations.StepRunsPortRequest : Prop :=
  ∀ (s : State) (r : Issue) (rest : List Issue) (i : Instr), running 1 s → s.txn = .idle → s.requests = r :: rest →
    decode s.registry (.request r.request) = .ok i → i.wellFormed = true →
    step s = exec i { passed 1 s with requests := rest, inputRace := r.race }

/-- The step of a transaction at the mux executes the dispatch row its header decodes to; on PACK, where no header exists
yet, the row of its kind (with a total length of 0: the model's choice, log entry 11). -/
def Obligations.StepRunsSelectedRow : Prop :=
  (∀ (s : State) (input : List Byte) (service totalLen : Half) (i : Instr), running 1 s → s.txn = .unpackAtMux input →
    s.hdr = heldHeader service totalLen →
    decode s.registry (.header [0x06, 0x10, service.extractLsb' 8 8, service.extractLsb' 0 8,
      totalLen.extractLsb' 8 8, totalLen.extractLsb' 0 8]) = .ok i → i.wellFormed = true →
    step s = exec i (passed 1 s)) ∧
  (∀ (s : State) (x : Payload), running 1 s → ∀ p ∈ rows, s.txn = .packAtMux p.2 x →
    step s = exec (p.1 0) (passed 1 s))

/-- R50, R71, R84, R85: an UNPACK at the mux whose header is in `H` and selects no row ends with the error of its class: HDR_LEN
with n = 1, else HDR_VER with n = 2, else UNKNOWN_SERVICE with n = 6; no parser is called and `svc_out` is unchanged. (That a
transaction stands at the mux between two steps is the model's choice, log entry 11.) -/
def Obligations.UnacceptedHeaderEndsUnpack : Prop :=
  ∀ (s : State) (input : List Byte) (l v : Byte) (service totalLen : Half), running 1 s → s.txn = .unpackAtMux input →
    s.hdr = { hdrLen := some l, version := some v, service := some service, totalLen := some totalLen } →
    (l ≠ 0x06 → step s = .next (ended (passed 1 s) (plain 1 1))) ∧
    (l = 0x06 → v ≠ 0x10 → step s = .next (ended (passed 1 s) (plain 2 2))) ∧
    (l = 0x06 → v = 0x10 → (∀ k, s.registry.serviceId k ≠ service) → step s = .next (ended (passed 1 s) (plain 3 6)))

/-- A reserved kind tag and a registry that is not injective are refused (R97). That every step of such an instance is refused,
and that the mark is the refused outcome at which a run stops, is the model's reading (DEDUCED, log entry 15). -/
def Obligations.RefusalsAndTheirMark : Prop :=
  (∀ (s : State) (k : BitVec 4) (x : Payload), 11 ≤ k.toNat → exec (.pack k x) s = .refused (.reservedKindTag k)) ∧
  (∀ (s : State) (k j : Kind), k ≠ j → s.registry.serviceId k = s.registry.serviceId j →
    step s = .refused .registryNotInjective) ∧
  (∀ (s : State) (r : Refusal) (n : Nat), step s = .refused r → runSteps (n + 1) s = .refused r)

/-- An idle instance with no request on its port stays as it is, for any number of steps in which no reset lands (R95, R102; that
a step then answers the same state, but for the moments of the reset line, is the model's choice, log entries 10 and 19). -/
def Obligations.IdleInstanceWaits : Prop :=
  ∀ (s : State) (n : Nat), running n s → s.txn = .idle → s.requests = [] → runSteps n s = .next (passed n s)

/-- R103: a reset aborts the transaction in flight with no response; `svc_out`, the ROM and what the sink has taken stay, whether
it lands before a step, right after the request of any operation is accepted, or while a PACK stands at the sink, before or
after the sink's first turn. (Where a reset can land, and that the requests not yet accepted stay, is the model's choice, log
entry 10.) -/
def Obligations.ResetAbortsTransaction : Prop :=
  (∀ (s : State) (ms : List ResetMoment), s.registry.injective = true → s.resetLine = .before :: ms →
    step s = .next (afterReset (passed 1 s))) ∧
  (∀ (s : State) (ms : List ResetMoment), s.registry.injective = true → s.resetLine = .accepted :: ms →
    (s.txn ≠ .idle ∨ s.requests = [] → step s = .next (afterReset (passed 1 s))) ∧
    (∀ r rest i, s.txn = .idle → s.requests = r :: rest → decode s.registry (.request r.request) = .ok i →
      i.wellFormed = true → step s = .next { afterReset (passed 1 s) with requests := rest })) ∧
  (∀ (s : State) (packet : List Byte) (acc : Nat) (ws : List SinkTurn), running 1 s → waitingOnSink s packet acc →
    s.sinkTurns = .resetHits :: ws → step s = .next { afterReset (passed 1 s) with sinkTurns := ws }) ∧
  (∀ (s : State) (k : Kind) (x : Payload) (body : List Byte) (ws : List SinkTurn), s.serDraws.head = .ok body →
    lengthTaken s body.length → s.sinkTurns = .resetHits :: ws →
    exec (.pack k.tag x) s = .next { afterReset (atSink s k x body 0) with sinkTurns := ws })

/-- R103, operation by operation: a reset that lands after the collaborators have answered and before the response. There is no
response and `svc_out` is unchanged, also where the parser delivered an instance; what the collaborators were given stays with
them, and the sink holds the bytes of the packet it took, of any number up to all. (Where a reset can land is the model's
choice, log entry 10.) -/
def Obligations.ResetBeforeResponseAborts : Prop :=
  ∀ (s : State) (r : Issue) (rest : List Issue) (ms : List ResetMoment) (i : Instr), s.registry.injective = true →
    s.resetLine = .answering :: ms → s.txn = .idle → s.requests = r :: rest →
    decode s.registry (.request r.request) = .ok i →
    let u : State := { afterReset (passed 1 s) with requests := rest }
    (∀ sid bodyLen, i = .hdrPack sid bodyLen → step s = .next u) ∧
    (∀ input, i = .hdrUnpack input → step s = .next u) ∧
    (∀ input, i = .unpack input →
      (∀ k b2 b3 b4 b5 body m, seenInput r.race input = 0x06 :: 0x10 :: b2 :: b3 :: b4 :: b5 :: body →
        b2 ++ b3 = s.registry.serviceId k → m ≤ body.length →
        ((∃ inst, s.parseDraws.head = .ok m inst) ∨ ∃ e, s.parseDraws.head = .err m e) → step s = .next
          { u with parseDraws := s.parseDraws.tail, calls := s.calls ++ [.parse k (s.registry.entry k).zero body] }) ∧
      ((∀ k b2 b3 b4 b5 body, seenInput r.race input = 0x06 :: 0x10 :: b2 :: b3 :: b4 :: b5 :: body →
        b2 ++ b3 ≠ s.registry.serviceId k) → step s = .next u)) ∧
    (∀ k x, i = .pack (Kind.tag k) x →
      (∀ e, s.serDraws.head = .err e → step s = .next
        { u with serDraws := s.serDraws.tail, calls := s.calls ++ [.serialize k x] }) ∧
      ∀ body, s.serDraws.head = .ok body →
        (65529 < body.length → s.lenOverflow = .refuse → step s = .next
          { u with serDraws := s.serDraws.tail, calls := s.calls ++ [.serialize k x] }) ∧
        (lengthTaken s body.length →
          let v : State := { u with serDraws := s.serDraws.tail
                                    calls := s.calls ++ [.serialize k x, .offer (packetOf s.registry k body)] }
          (s.sinkTurns = [] → step s = .next v) ∧
          (∀ ws, s.sinkTurns = .accept :: ws → step s = .next
            { v with sink := s.sink ++ packetOf s.registry k body, sinkTurns := ws }) ∧
          (∀ j ws, (s.sinkTurns = .taking j :: ws ∨ ∃ e, s.sinkTurns = .fail j e :: ws) → j ≤ 6 + body.length →
            step s = .next { v with sink := s.sink ++ (packetOf s.registry k body).take j, sinkTurns := ws })))

/-- R102, R103 for the whole machine: after a step in which a reset lands, wherever it lands and whatever was in flight, no
transaction is in flight, no response and no transient register holds a value, `svc_out` and the ROM are unchanged, and the
sink keeps what it had taken; of the packet of a waiting PACK it has taken a prefix, of any length. (The places where a reset
can land, and that only an accepted request is lost, are the model's choice, log entry 10.) -/
def Obligations.ResetLeavesNoResponse : Prop :=
  ∀ (s t : State) (m : ResetMoment) (ms : List ResetMoment), s.resetLine = m :: ms → m ≠ .low → step s = .next t →
    t.txn = .idle ∧ t.resp = none ∧ t.hdr = { hdrLen := none, version := none, service := none, totalLen := none } ∧
    t.cur = none ∧ t.buf = none ∧ t.inputRace = [] ∧ t.svcOut = s.svcOut ∧ t.registry = s.registry ∧
    t.lenOverflow = s.lenOverflow ∧ t.resetLine = ms ∧ s.sink <+: t.sink ∧
    (t.requests = s.requests ∨ s.txn = .idle ∧ m ≠ .before ∧ ∃ r, s.requests = r :: t.requests) ∧
    (∀ packet acc, waitingOnSink s packet acc → (∀ bytes ws, s.sinkTurns ≠ .foreign bytes :: ws) →
      ∃ j, j ≤ packet.length ∧ t.sink = s.sink ++ (packet.take j).drop acc)

/-- R27, R102: after reset no transaction is in flight, no transient register and no response field holds a value, and the
constants are 0x06 and 0x10. -/
def Obligations.ResetLeavesInstanceIdle : Prop :=
  State.reset.txn = .idle ∧ State.reset.requests = [] ∧ State.reset.resp = none ∧ State.reset.cur = none ∧
  State.reset.buf = none ∧ State.reset.hdr = { hdrLen := none, version := none, service := none, totalLen := none } ∧
  Config.hdrLenConst = 0x06 ∧ Config.protoVerConst = 0x10 ∧ Config.hdrSize = 6

/-! ### HDR_PACK and HDR_UNPACK -/

/-- R53: the header HDR_PACK builds, LEN_OVERFLOW under REFUSE, and the wrapped length under WRAP, for every `sid`. -/
def Obligations.HdrPackBuildsHeader : Prop :=
  ∀ (s : State) (sid : Half) (bodyLen : Nat),
    (lengthTaken s bodyLen → exec (.hdrPack sid bodyLen) s =
      .next (ended s { plain 0 6 with hdr := some (headerOf sid bodyLen) })) ∧
    (65529 < bodyLen → s.lenOverflow = .refuse → exec (.hdrPack sid bodyLen) s = .next (ended s (plain 8 0)))

/-- R54, with the bytes the reads return (R34, R105): every answer of HDR_UNPACK. -/
def Obligations.HdrUnpackReadsAndChecks : Prop :=
  ∀ (s : State) (input : List Byte),
    exec (.hdrUnpack input) s = .next (ended s (unpackedHeader (seenInput s.inputRace input)))

/-- R58: HDR_UNPACK of HDR_PACK's header and any bytes gives back the identifier and `B + 6`. -/
def Obligations.HdrUnpackInvertsHdrPack : Prop :=
  ∀ (s u : State) (sid : Half) (bodyLen : Nat) (t : List Byte), bodyLen ≤ 65529 → u.inputRace = [] →
    ∃ p r bytes totalLen, exec (.hdrPack sid bodyLen) s = .next p ∧ p.resp = some r ∧ r.status = 0 ∧ r.hdr = some bytes ∧
      exec (.hdrUnpack (bytes ++ t)) u = .next (ended u (okFields sid totalLen)) ∧ totalLen.toNat = bodyLen + 6

/-- R55: the constant checks compare whole bytes: HDR_LEN and HDR_VER are reported exactly when the byte differs at all. -/
def Obligations.ConstantsComparedWhole : Prop :=
  ∀ (s : State) (input : List Byte) (b0 : Byte) (r0 : List Byte), seenInput s.inputRace input = b0 :: r0 →
    ((∃ t r, exec (.hdrUnpack input) s = .next t ∧ t.resp = some r ∧ r.status = 1) ↔ b0 ≠ 0x06) ∧
    ∀ (b1 : Byte) (r1 : List Byte), b0 = 0x06 → r0 = b1 :: r1 →
      ((∃ t r, exec (.hdrUnpack input) s = .next t ∧ t.resp = some r ∧ r.status = 2) ↔ b1 ≠ 0x10)

/-- R84: a wrong length byte gives HDR_LEN with n = 1, on HDR_UNPACK and on UNPACK. -/
def Obligations.WrongLengthByteGivesHdrLen : Prop :=
  ∀ (s : State) (input : List Byte) (b0 : Byte) (r0 : List Byte), seenInput s.inputRace input = b0 :: r0 → b0 ≠ 0x06 →
    exec (.hdrUnpack input) s = .next (ended s (plain 1 1)) ∧ exec (.unpack input) s = .next (ended s (plain 1 1))

/-- R85: a wrong version byte after a right length byte gives HDR_VER with n = 2, on both. -/
def Obligations.WrongVersionByteGivesHdrVer : Prop :=
  ∀ (s : State) (input : List Byte) (b1 : Byte) (r1 : List Byte), seenInput s.inputRace input = 0x06 :: b1 :: r1 →
    b1 ≠ 0x10 →
    exec (.hdrUnpack input) s = .next (ended s (plain 2 2)) ∧ exec (.unpack input) s = .next (ended s (plain 2 2))

/-- R90: an input that ends before a field gives SHORT_INPUT with n = 0, 1, 2 or 4, on both. -/
def Obligations.ShortInputReportsCompleteFields : Prop :=
  ∀ (s : State) (input : List Byte) (n : Nat),
    (seenInput s.inputRace input = [] ∧ n = 0 ∨
     seenInput s.inputRace input = [0x06] ∧ n = 1 ∨
     (∃ r, seenInput s.inputRace input = 0x06 :: 0x10 :: r ∧ r.length ≤ 1) ∧ n = 2 ∨
     (∃ r, seenInput s.inputRace input = 0x06 :: 0x10 :: r ∧ (r.length = 2 ∨ r.length = 3)) ∧ n = 4) →
    exec (.hdrUnpack input) s = .next (ended s (plain 5 n)) ∧ exec (.unpack input) s = .next (ended s (plain 5 n))

/-! ### UNPACK -/

/-- R71, R86: an accepted header whose identifier is no entry gives UNKNOWN_SERVICE with n = 6; no parser is called and
`svc_out` is unchanged. -/
def Obligations.UnknownServiceReportsSix : Prop :=
  ∀ (s : State) (input : List Byte) (b2 b3 b4 b5 : Byte) (body : List Byte),
    seenInput s.inputRace input = 0x06 :: 0x10 :: b2 :: b3 :: b4 :: b5 :: body →
    (∀ k, s.registry.serviceId k ≠ b2 ++ b3) →
    exec (.unpack input) s = .next (ended s (plain 3 6))

/-- R76: an accepted header of kind k whose parser answers `(m, Ok(inst))` to `in[6..)`: OK with n = 6 + m, kind and instance;
`svc_out <- (k, inst)`. -/
def Obligations.UnpackDeliversInstance : Prop :=
  ∀ (s : State) (input : List Byte) (k : Kind) (b2 b3 b4 b5 : Byte) (body : List Byte) (m : Nat) (inst : Instance),
    s.registry.injective = true → seenInput s.inputRace input = 0x06 :: 0x10 :: b2 :: b3 :: b4 :: b5 :: body →
    b2 ++ b3 = s.registry.serviceId k → s.parseDraws.head = .ok m inst → m ≤ body.length →
    exec (.unpack input) s = .next
      { ended s (okInstance (6 + m) k inst) with
          svcOut := { kind := k, inst := inst }
          parseDraws := s.parseDraws.tail
          calls := s.calls ++ [.parse k (s.registry.entry k).zero body] }

/-- R77, R87: when the parser answers `(m, Err(e))`, BODY_PARSE with n = 6 + m and `e` forwarded; `svc_out` is unchanged. -/
def Obligations.UnpackForwardsParserError : Prop :=
  ∀ (s : State) (input : List Byte) (k : Kind) (b2 b3 b4 b5 : Byte) (body : List Byte) (m : Nat) (e : ErrVal),
    s.registry.injective = true → seenInput s.inputRace input = 0x06 :: 0x10 :: b2 :: b3 :: b4 :: b5 :: body →
    b2 ++ b3 = s.registry.serviceId k → s.parseDraws.head = .err m e → m ≤ body.length →
    exec (.unpack input) s = .next
      { ended s (forwarding 4 (6 + m) e) with
          parseDraws := s.parseDraws.tail
          calls := s.calls ++ [.parse k (s.registry.entry k).zero body] }

/-- R100, R108: UNPACK waits on nothing. For every state and every input it ends with a response in its one exchange, unless the
parser's count is outside its oracle's type (R73), which is refused (log entry 3). -/
def Obligations.UnpackNeverWaits : Prop :=
  ∀ (s : State) (input : List Byte),
    (∃ t, exec (.unpack input) s = .next t ∧ t.txn = .idle ∧ t.resp ≠ none) ∨
    (exec (.unpack input) s = .refused .parserOverrun ∧
      ∃ m, input.length - 6 < m ∧ ((∃ inst, s.parseDraws.head = .ok m inst) ∨ ∃ e, s.parseDraws.head = .err m e))

/-- R78: UNPACK writes `svc_out` exactly when it ends with OK, and then with the kind and instance of its response. -/
def Obligations.SvcOutWrittenOnlyOnOk : Prop :=
  ∀ (s t : State) (input : List Byte), exec (.unpack input) s = .next t →
    ((∃ r, t.resp = some r ∧ r.status = 0) →
      ∃ n, t.resp = some (okInstance n t.svcOut.kind t.svcOut.inst)) ∧
    ((¬ ∃ r, t.resp = some r ∧ r.status = 0) → t.svcOut = s.svcOut)

/-- R25, R78 for the whole machine: a step that changes `svc_out` ends an UNPACK with OK and these results. -/
def Obligations.SvcOutChangesOnlyByOkUnpack : Prop :=
  ∀ s t : State, step s = .next t →
    t.svcOut = s.svcOut ∨ t.txn = .idle ∧ ∃ n, t.resp = some (okInstance n t.svcOut.kind t.svcOut.inst)

/-- R56: UNPACK's outcome does not depend on the total length. -/
def Obligations.TotalLengthIgnored : Prop :=
  ∀ (s : State) (b0 b1 b2 b3 t4 t5 u4 u5 : Byte) (body : List Byte), s.inputRace = [] →
    exec (.unpack (b0 :: b1 :: b2 :: b3 :: t4 :: t5 :: body)) s = exec (.unpack (b0 :: b1 :: b2 :: b3 :: u4 :: u5 :: body)) s

/-! ### The dispatch entries -/

/-- R60 to R70 on UNPACK: the entry of each row routes `in[6..)` to its kind's parser; `(m, Ok(inst))` ends the transaction with
its kind, `(m, Err(e))` with BODY_PARSE. The total length of the row and of the header are not examined. -/
def Obligations.RowRoutesBodyToParser : Prop :=
  ∀ (s : State) (input : List Byte) (t u : Half) (m : Nat), ∀ p ∈ rows,
    s.txn = .unpackAtMux input → s.hdr = heldHeader (s.registry.serviceId p.2) t →
    m ≤ input.length - 6 →
    (∀ inst, s.parseDraws.head = .ok m inst → exec (p.1 u) s = .next
      { ended s (okInstance (6 + m) p.2 inst) with
          svcOut := { kind := p.2, inst := inst }
          parseDraws := s.parseDraws.tail
          calls := s.calls ++ [.parse p.2 (s.registry.entry p.2).zero ((seenInput s.inputRace input).drop 6)] }) ∧
    (∀ e, s.parseDraws.head = .err m e → exec (p.1 u) s = .next
      { ended s (forwarding 4 (6 + m) e) with
          parseDraws := s.parseDraws.tail
          calls := s.calls ++ [.parse p.2 (s.registry.entry p.2).zero ((seenInput s.inputRace input).drop 6)] })

/-- R60 to R70 on PACK: the entry of each row serializes its kind's payload and offers the packet with `REG[k]` in bytes 2-3.
Every end of it: SERIALIZE (R88), LEN_OVERFLOW (R91), OK with n = 6 + B, SINK_WRITE (R89); with no answer of the sink it stands
at the sink (R108). -/
def Obligations.RowPacksPayload : Prop :=
  ∀ (s : State) (x : Payload) (u : Half), ∀ p ∈ rows, s.txn = .packAtMux p.2 x →
    (∀ e, s.serDraws.head = .err e → exec (p.1 u) s = .next
      { ended s (forwarding 6 0 e) with serDraws := s.serDraws.tail, calls := s.calls ++ [.serialize p.2 x] }) ∧
    ∀ body, s.serDraws.head = .ok body →
      (65529 < body.length → s.lenOverflow = .refuse → exec (p.1 u) s = .next
        { ended s (plain 8 0) with serDraws := s.serDraws.tail, calls := s.calls ++ [.serialize p.2 x] }) ∧
      (lengthTaken s body.length →
        (s.sinkTurns = [] → exec (p.1 u) s = .next (atSink s p.2 x body 0)) ∧
        (∀ ws, s.sinkTurns = .accept :: ws → exec (p.1 u) s = .next
          { ended (atSink s p.2 x body 0) (plain 0 (6 + body.length)) with
              sink := s.sink ++ packetOf s.registry p.2 body
              sinkTurns := ws }) ∧
        (∀ j e ws, s.sinkTurns = .fail j e :: ws → j ≤ 6 + body.length → exec (p.1 u) s = .next
          { ended (atSink s p.2 x body 0) (forwarding 7 j e) with
              sink := s.sink ++ (packetOf s.registry p.2 body).take j
              sinkTurns := ws }))

/-- R100, R108: an entry waits on the sink alone. On UNPACK a next state has ended with a response; on PACK it has ended, or stands
at the sink with the whole packet of a serialized body that was taken. -/
def Obligations.RowWaitsOnSinkAlone : Prop :=
  ∀ (s t : State) (u : Half), ∀ p ∈ rows, exec (p.1 u) s = .next t →
    (∀ input, s.txn = .unpackAtMux input → t.txn = .idle ∧ t.resp ≠ none) ∧
    (∀ x, s.txn = .packAtMux p.2 x → t.txn = .idle ∨
      ∃ body acc, s.serDraws.head = .ok body ∧ lengthTaken s body.length ∧ waitingOnSink t (packetOf s.registry p.2 body) acc)

/-- The model's choice (log entry 11): a row executed where the mux has not selected it is refused by name: no transaction at
the mux, another kind's header (R45), or another kind's payload. -/
def Obligations.UnselectedRowRefused : Prop :=
  ∀ (s : State) (u : Half), ∀ p ∈ rows,
    (s.txn = .idle → exec (p.1 u) s = .refused .entryNotSelected) ∧
    (∀ n, s.txn = .sinkWait n → exec (p.1 u) s = .refused .entryNotSelected) ∧
    (∀ input service totalLen, s.txn = .unpackAtMux input → s.hdr = heldHeader service totalLen →
      service ≠ s.registry.serviceId p.2 → exec (p.1 u) s = .refused .entryNotSelected) ∧
    (∀ k x, s.txn = .packAtMux k x → k ≠ p.2 → exec (p.1 u) s = .refused .entryNotSelected)

/-! ### PACK and the sink -/

/-- R75, R35, R37: PACK of a payload the serializer turns into `body`, with a sink that accepts: the sink receives the whole
packet and the response is OK with n = 6 + B (under WRAP also when the length wraps). The other clause, for a sink that reports
the whole packet and no error (`wrote`), is the model's choice (DESIGN CHOICE, log entry 3): R35 has the answer `Accept` only. -/
def Obligations.PackEmitsPacket : Prop :=
  ∀ (s : State) (k : Kind) (x : Payload) (body : List Byte) (ws : List SinkTurn),
    s.serDraws.head = .ok body → lengthTaken s body.length →
    (s.sinkTurns = .accept :: ws ∨ s.sinkTurns = .wrote (6 + body.length) :: ws) →
    exec (.pack k.tag x) s = .next
      { ended s (plain 0 (6 + body.length)) with
          sink := s.sink ++ packetOf s.registry k body
          serDraws := s.serDraws.tail
          sinkTurns := ws
          calls := s.calls ++ [.serialize k x, .offer (packetOf s.registry k body)] }

/-- R88: when the serializer answers `Err(e)`, SERIALIZE with n = 0 and `e` forwarded; the sink gets no byte. -/
def Obligations.SerializerErrorForwarded : Prop :=
  ∀ (s : State) (k : Kind) (x : Payload) (e : ErrVal), s.serDraws.head = .err e →
    exec (.pack k.tag x) s = .next
      { ended s (forwarding 6 0 e) with serDraws := s.serDraws.tail, calls := s.calls ++ [.serialize k x] }

/-- R91: a body longer than 65529 bytes under REFUSE gives LEN_OVERFLOW with n = 0 on HDR_PACK and on PACK, and the sink gets no
byte; under WRAP neither ever reports it. -/
def Obligations.LongBodyGivesLenOverflow : Prop :=
  (∀ (s : State) (sid : Half) (bodyLen : Nat), 65529 < bodyLen → s.lenOverflow = .refuse →
    exec (.hdrPack sid bodyLen) s = .next (ended s (plain 8 0))) ∧
  (∀ (s : State) (k : Kind) (x : Payload) (body : List Byte), s.serDraws.head = .ok body →
    65529 < body.length → s.lenOverflow = .refuse →
    exec (.pack k.tag x) s = .next
      { ended s (plain 8 0) with serDraws := s.serDraws.tail, calls := s.calls ++ [.serialize k x] }) ∧
  (∀ (s t : State) (r : Response) (sid : Half) (bodyLen : Nat) (k : BitVec 4) (x : Payload), s.lenOverflow = .wrap →
    (exec (.hdrPack sid bodyLen) s = .next t ∨ exec (.pack k x) s = .next t) → t.resp = some r → r.status ≠ 8)

/-- R89: when the sink answers `Fail(j, e)`, SINK_WRITE with n = j and `e` forwarded; the sink has the first j bytes. -/
def Obligations.SinkFailureForwarded : Prop :=
  ∀ (s : State) (k : Kind) (x : Payload) (body : List Byte) (j : Nat) (e : ErrVal) (ws : List SinkTurn),
    s.serDraws.head = .ok body → lengthTaken s body.length → s.sinkTurns = .fail j e :: ws → j ≤ 6 + body.length →
    exec (.pack k.tag x) s = .next
      { ended s (forwarding 7 j e) with
          sink := s.sink ++ (packetOf s.registry k body).take j
          serDraws := s.serDraws.tail
          sinkTurns := ws
          calls := s.calls ++ [.serialize k x, .offer (packetOf s.registry k body)] }

/-- R79: PACK writes no sink byte unless serialization succeeded and the header could be built, from its request on or from its
dispatch entry on. -/
def Obligations.NoSinkByteBeforePacket : Prop :=
  ∀ (s t : State) (x : Payload), t.sink ≠ s.sink →
    ((∃ k, exec (.pack k x) s = .next t) ∨ ∃ p ∈ rows, ∃ u, s.txn = .packAtMux p.2 x ∧ exec (p.1 u) s = .next t) →
    ∃ body, s.serDraws.head = .ok body ∧ lengthTaken s body.length

/-- R80, R38: when PACK has ended with a response, from its request on or from its dispatch entry on, its count is the number of
bytes the sink took, and they are the packet's first. -/
def Obligations.PackCountsSinkBytes : Prop :=
  ∀ (s t : State) (k : Kind) (x : Payload) (r : Response),
    (exec (.pack k.tag x) s = .next t ∨ ∃ p ∈ rows, ∃ u, p.2 = k ∧ s.txn = .packAtMux k x ∧ exec (p.1 u) s = .next t) →
    t.txn = .idle → t.resp = some r →
    ∃ taken, t.sink = s.sink ++ taken ∧ taken.length = r.n ∧
      ∀ body, s.serDraws.head = .ok body → taken <+: packetOf s.registry k body

/-- R100, R108: PACK waits on the sink alone. A next state has ended, or stands at the sink, with no response, with the whole packet
of a serialized body that was taken. -/
def Obligations.PackWaitsOnSinkAlone : Prop :=
  ∀ (s t : State) (k : Kind) (x : Payload), exec (.pack k.tag x) s = .next t →
    t.txn = .idle ∨ t.resp = none ∧
      ∃ body acc, s.serDraws.head = .ok body ∧ lengthTaken s body.length ∧ waitingOnSink t (packetOf s.registry k body) acc

/-- R108: PACK whose sink does not answer is not finished: it has no response, holds its header and `BUF`, and waits; with no
further turn of the sink it stays so for any number of steps in which no reset lands (a stuck state answers itself, but for the
moments of the reset line: the model's choice, log entries 10 and 19). -/
def Obligations.UnansweringSinkLeavesPackStuck : Prop :=
  (∀ (s : State) (k : Kind) (x : Payload) (body : List Byte), s.serDraws.head = .ok body →
    lengthTaken s body.length → s.sinkTurns = [] →
    exec (.pack k.tag x) s = .next { atSink s k x body 0 with cur := none, resp := none } ∧
    waitingOnSink (atSink s k x body 0) (packetOf s.registry k body) 0) ∧
  (∀ (s : State) (packet : List Byte) (acc n : Nat), running n s → waitingOnSink s packet acc → s.sinkTurns = [] →
    runSteps n s = .next (passed n s))

/-- What each turn of the sink does to a waiting PACK. It accepts all, or it fails after j bytes (R35). The turns that take a piece
before the answer, and the answer that counts the whole packet and reports no error, are the model's choice (log entry 3);
bytes of another transaction that land without being counted are log entry 12 (R106). -/
def Obligations.WaitingPackTakesSinkTurn : Prop :=
  ∀ (s : State) (packet : List Byte) (acc : Nat) (ws : List SinkTurn), running 1 s → waitingOnSink s packet acc →
    (∀ d, s.sinkTurns = .taking d :: ws → acc + d ≤ packet.length → step s = .next
      { passed 1 s with sink := s.sink ++ (packet.drop acc).take d, sinkTurns := ws, txn := .sinkWait (acc + d) }) ∧
    (∀ bytes, s.sinkTurns = .foreign bytes :: ws →
      step s = .next { passed 1 s with sink := s.sink ++ bytes, sinkTurns := ws }) ∧
    (s.sinkTurns = .accept :: ws ∨ s.sinkTurns = .wrote packet.length :: ws → step s = .next
      { ended (passed 1 s) (plain 0 packet.length) with sink := s.sink ++ packet.drop acc, sinkTurns := ws }) ∧
    (∀ j e, s.sinkTurns = .fail j e :: ws → acc ≤ j → j ≤ packet.length → step s = .next
      { ended (passed 1 s) (forwarding 7 j e) with sink := s.sink ++ (packet.take j).drop acc, sinkTurns := ws })

/-- R35, D27, over runs: however the sink splits the packet (pieces of any sizes that do not exceed it, then acceptance; that
the sink may take pieces before it answers is the model's choice, log entry 3), PACK ends with OK and n = 6 + B, and the sink
has received exactly the packet. -/
def Obligations.SinkSplitDoesNotMatter : Prop :=
  ∀ (s : State) (r : Issue) (requests : List Issue) (k : Kind) (body : List Byte) (pieces : List Nat) (ws : List SinkTurn),
    running (pieces.length + 1) s → s.txn = .idle → s.requests = r :: requests → r.request.op = 2 → r.request.kind = k.tag →
    s.serDraws.head = .ok body → lengthTaken s body.length →
    s.sinkTurns = pieces.map .taking ++ .accept :: ws → pieces.sum ≤ 6 + body.length →
    runSteps (pieces.length + 1) s = .next
      { ended (passed (pieces.length + 1) s) (plain 0 (6 + body.length)) with
          requests := requests
          sink := s.sink ++ packetOf s.registry k body
          serDraws := s.serDraws.tail
          sinkTurns := ws
          calls := s.calls ++ [.serialize k r.request.payload, .offer (packetOf s.registry k body)] }

/-- R60 to R70, R72, R75, R76: from the mux on, a transaction is its dispatch row. UNPACK of an accepted header does what the row
of its kind does at the mux, and what a step does that fetches the row from `H`; PACK does what the row of its kind does at
the mux. (A row as an instruction of its own is the model's choice, log entry 11.) -/
def Obligations.OperationRunsItsRow : Prop :=
  (∀ (s : State) (input : List Byte) (b2 b3 b4 b5 : Byte) (body : List Byte) (u : Half), ∀ p ∈ rows,
    s.registry.injective = true → seenInput s.inputRace input = 0x06 :: 0x10 :: b2 :: b3 :: b4 :: b5 :: body →
    b2 ++ b3 = s.registry.serviceId p.2 →
    exec (.unpack input) s = exec (p.1 u) (unpackAtMux s input (b2 ++ b3) (b4 ++ b5)) ∧
    (running 1 s → step (unpackAtMux s input (b2 ++ b3) (b4 ++ b5)) = exec (.unpack input) (passed 1 s))) ∧
  (∀ (s : State) (x : Payload) (u : Half), ∀ p ∈ rows,
    exec (.pack p.2.tag x) s = exec (p.1 u) (packAtMux s p.2 x) ∧
    (running 1 s → step (packAtMux s p.2 x) = exec (.pack p.2.tag x) (passed 1 s)))

/-- R81: PACK into an accepting sink, then UNPACK of the bytes written (and anything after them), with a parser that takes
back exactly the body: OK, n = 6 + len(b), the same kind, and the parser's instance in the response and in `svc_out`. -/
def Obligations.UnpackInvertsPack : Prop :=
  ∀ (s u : State) (k : Kind) (x : Payload) (body after : List Byte) (inst : Instance) (ws : List SinkTurn),
    s.registry.injective = true → s.serDraws.head = .ok body → body.length ≤ 65529 → s.sinkTurns = .accept :: ws →
    u.registry = s.registry → u.inputRace = [] → u.parseDraws.head = .ok body.length inst →
    ∃ t written, exec (.pack k.tag x) s = .next t ∧ t.sink = s.sink ++ written ∧
      t.resp = some (plain 0 (6 + body.length)) ∧
      exec (.unpack (written ++ after)) u = .next
        { ended u (okInstance (6 + body.length) k inst) with
            svcOut := { kind := k, inst := inst }
            parseDraws := u.parseDraws.tail
            calls := u.calls ++ [.parse k (u.registry.entry k).zero (body ++ after)] }

/-! ### The whole machine -/

/-- R28, R38: the sink is append-only: no step takes back or changes a byte of it. -/
def Obligations.SinkOnlyGrows : Prop :=
  ∀ s t : State, step s = .next t → s.sink <+: t.sink

/-- R7, R18: no instruction and no step writes the registry or the overflow parameter. -/
def Obligations.ParametersNeverWritten : Prop :=
  (∀ (i : Instr) (s t : State), exec i s = .next t → t.registry = s.registry ∧ t.lenOverflow = s.lenOverflow) ∧
  (∀ s t : State, step s = .next t → t.registry = s.registry ∧ t.lenOverflow = s.lenOverflow)

/-- R24, R83: a response that a step puts on the port has a code 0 to 8, an error exactly for BODY_PARSE, SERIALIZE and
SINK_WRITE, no op-specific result unless the status is OK, and on OK exactly the results of its operation: six header bytes for
HDR_PACK, both 16-bit fields for HDR_UNPACK, nothing for PACK, kind and instance for UNPACK, and for a dispatch entry those of
the transaction it belongs to. -/
def Obligations.NewResponsesHaveDefinedFields : Prop :=
  (∀ (s t : State) (r : Response), step s = .next t → t.resp = some r → t.resp ≠ s.resp →
    r.status.toNat ≤ 8 ∧ (r.err ≠ none ↔ r.status = 4 ∨ r.status = 6 ∨ r.status = 7) ∧
    (r.status ≠ 0 → r.hdr = none ∧ r.service = none ∧ r.totalLen = none ∧ r.kind = none ∧ r.inst = none)) ∧
  (∀ (s t : State) (r : Response), t.resp = some r → r.status = 0 →
    (∀ sid bodyLen, exec (.hdrPack sid bodyLen) s = .next t →
      ∃ bytes, bytes.length = 6 ∧ r = { plain 0 6 with hdr := some bytes }) ∧
    (∀ input, exec (.hdrUnpack input) s = .next t → ∃ service totalLen, r = okFields service totalLen) ∧
    (∀ k x, exec (.pack k x) s = .next t → r = plain 0 r.n) ∧
    (∀ input, exec (.unpack input) s = .next t → ∃ n k inst, r = okInstance (6 + n) k inst) ∧
    (∀ p ∈ rows, ∀ u, exec (p.1 u) s = .next t → t.txn = .idle →
      (∀ input, s.txn = .unpackAtMux input → ∃ n inst, r = okInstance (6 + n) p.2 inst) ∧
      (∀ x, s.txn = .packAtMux p.2 x → r = plain 0 r.n)) ∧
    (∀ acc, running 1 s → s.txn = .sinkWait acc → step s = .next t → t.txn = .idle → r = plain 0 r.n))

/-- R41, R108: a transaction has a response exactly when it has ended, at every step of it: the step that accepts its request, and
every later step from a consistent state. The one end without a response is a reset's (R103): the sink's turn here, and in a
step in which the reset line says so, ResetLeavesNoResponse. -/
def Obligations.ResponseExactlyWhenEnded : Prop :=
  ∀ (s t : State), running 1 s → step s = .next t →
    (s.txn = .idle ∧ s.requests ≠ [] ∨ s.txn ≠ .idle ∧ s.consistent = true) →
    (t.resp ≠ none → t.txn = .idle) ∧ (t.txn = .idle → t.resp ≠ none ∨ s.sinkTurns.head? = some .resetHits)

/-- R13, R39: an operation's answer depends on its operands, the ROM, the overflow parameter and the collaborators' answers
only: two states that agree on these give the same response, the same place in the transaction and the same sink bytes. -/
def Obligations.NothingSurvivesTransaction : Prop :=
  ∀ (r : Request) (s u t : State), u.registry = s.registry → u.lenOverflow = s.lenOverflow → u.serDraws = s.serDraws →
    u.parseDraws = s.parseDraws → u.sinkTurns = s.sinkTurns → u.inputRace = s.inputRace →
    exec (decodeRequest r) s = .next t →
    ∃ v, exec (decodeRequest r) u = .next v ∧ v.resp = t.resp ∧ v.txn = t.txn ∧ v.hdr = t.hdr ∧ v.cur = t.cur ∧
      v.buf = t.buf ∧ ∃ taken, t.sink = s.sink ++ taken ∧ v.sink = u.sink ++ taken

/-- R34, R105: reads return one byte per offset; each is the requester's byte or the byte it was changed to; with a stable
input they are the input. That the race of a state lists exactly the offsets whose reads return the new value, and that a change
leaves the length as it was, is the model's reading (log entry 9); R105 lets each read return either. -/
def Obligations.ReadsReturnOldOrNewByte : Prop :=
  ∀ (race : List (Option Byte)) (input : List Byte),
    (seenInput race input).length = input.length ∧
    (∀ (a : Nat) (b : Byte), (seenInput race input)[a]? = some b → input[a]? = some b ∨ race[a]? = some (some b)) ∧
    (∀ (a : Nat) (b : Byte), a < input.length → race[a]? = some (some b) → (seenInput race input)[a]? = some b) ∧
    ((∀ (a : Nat) (b : Byte), race[a]? ≠ some (some b)) → seenInput race input = input)

/-- The invariant: the transient registers hold exactly what their transaction gives them, and the response is well formed. From
such a state no step faults (R20: the rules never read a field that holds no value), and every next state is such a state
(R20, R21, R22, R24, R27, R83). -/
def Obligations.StepKeepsConsistency : Prop :=
  ∀ s : State, s.consistent = true → (∀ f, step s ≠ .fault f) ∧ ∀ t, step s = .next t → t.consistent = true

/-- The state after reset is consistent. -/
def Obligations.ResetIsConsistent : Prop :=
  State.reset.consistent = true

/-- R20: the rules never read a field that holds no value: from a consistent state no run of any length faults. -/
def Obligations.ConsistentRunsNeverFault : Prop :=
  ∀ (s : State) (n : Nat), s.consistent = true → s.safeFor n

/-- R24, D26, I11: reading a response field that holds no value, and observing a reserved status, is a model fault; a field
that holds a value is read. -/
def Obligations.AbsentResponseFieldsFault : Prop :=
  (∀ s : State, s.resp = none → readStatus s = .error (.responseFieldAbsent .status) ∧
    readCount s = .error (.responseFieldAbsent .n) ∧ readErr s = .error (.responseFieldAbsent .err) ∧
    readHdr s = .error (.responseFieldAbsent .hdr) ∧ readService s = .error (.responseFieldAbsent .service) ∧
    readTotalLen s = .error (.responseFieldAbsent .totalLen) ∧ readKind s = .error (.responseFieldAbsent .kind) ∧
    readInst s = .error (.responseFieldAbsent .inst)) ∧
  (∀ (s : State) (r : Response), s.resp = some r →
    readCount s = .ok r.n ∧
    readStatus s = (if r.status.toNat ≤ 8 then .ok r.status else .error (.reservedStatus r.status)) ∧
    (r.err = none → readErr s = .error (.responseFieldAbsent .err)) ∧ (∀ e, r.err = some e → readErr s = .ok e) ∧
    (r.hdr = none → readHdr s = .error (.responseFieldAbsent .hdr)) ∧ (∀ h, r.hdr = some h → readHdr s = .ok h) ∧
    (r.service = none → readService s = .error (.responseFieldAbsent .service)) ∧
    (∀ v, r.service = some v → readService s = .ok v) ∧
    (r.totalLen = none → readTotalLen s = .error (.responseFieldAbsent .totalLen)) ∧
    (∀ v, r.totalLen = some v → readTotalLen s = .ok v) ∧
    (r.kind = none → readKind s = .error (.responseFieldAbsent .kind)) ∧ (∀ v, r.kind = some v → readKind s = .ok v) ∧
    (r.inst = none → readInst s = .error (.responseFieldAbsent .inst)) ∧ (∀ v, r.inst = some v → readInst s = .ok v))

/-- I6 and the types of the oracles (R35, R73; the refusals are the model's reading, log entry 3): a parser that reports more
than it was given, to UNPACK or at a dispatch entry; a sink that reports more than it was offered, or less than it has taken;
and a short write without an error, at a PACK's first turn or at a later one. -/
def Obligations.AnswersOutsideOracleRefused : Prop :=
  (∀ (s : State) (input : List Byte) (t u : Half) (m : Nat), ∀ p ∈ rows, input.length - 6 < m →
    ((∃ inst, s.parseDraws.head = .ok m inst) ∨ ∃ e, s.parseDraws.head = .err m e) →
    (s.txn = .unpackAtMux input → s.hdr = heldHeader (s.registry.serviceId p.2) t →
      exec (p.1 u) s = .refused .parserOverrun) ∧
    (∀ b2 b3 b4 b5 body, seenInput s.inputRace input = 0x06 :: 0x10 :: b2 :: b3 :: b4 :: b5 :: body →
      b2 ++ b3 = s.registry.serviceId p.2 → exec (.unpack input) s = .refused .parserOverrun)) ∧
  (∀ (s : State) (packet : List Byte) (acc : Nat) (ws : List SinkTurn) (o : Host.Outcome State Fault Refusal),
    (running 1 s ∧ waitingOnSink s packet acc ∧ o = step s ∨
      ∃ k x body, s.serDraws.head = .ok body ∧ lengthTaken s body.length ∧ packet = packetOf s.registry k body ∧ acc = 0 ∧
        (o = exec (.pack k.tag x) s ∨ ∃ p ∈ rows, ∃ u, p.2 = k ∧ s.txn = .packAtMux k x ∧ o = exec (p.1 u) s)) →
    (∀ k e, s.sinkTurns = .fail k e :: ws → (k < acc ∨ packet.length < k) → o = .refused .sinkOverrun) ∧
    (∀ d, s.sinkTurns = .taking d :: ws → packet.length < acc + d → o = .refused .sinkOverrun) ∧
    (∀ k, s.sinkTurns = .wrote k :: ws → (k < acc ∨ packet.length < k) → o = .refused .sinkOverrun) ∧
    (∀ k, s.sinkTurns = .wrote k :: ws → acc ≤ k → k < packet.length → o = .refused .sinkShortWrite))
end

