-- ==== Sys2Proof/Laws/Codec.lean ====
section
/-! SUPPORT. What the big-endian fields, the kind tags, REG_LOOKUP and the encoder do, once each. -/

namespace Sys2Proof

@[simp] theorem be16_hiByte_loByte (v : Half) : be16 (hiByte v) (loByte v) = v := by
  apply BitVec.eq_of_getLsbD_eq
  intro i hi
  simp only [be16, hiByte, loByte, BitVec.getLsbD_append, BitVec.getLsbD_extractLsb']
  by_cases h : i < 8
  · simp [h]
  · have : i - 8 < 8 := by omega
    simp [h, this, show 8 + (i - 8) = i by omega]

@[simp] theorem hiByte_be16 (a b : Byte) : hiByte (be16 a b) = a := by
  apply BitVec.eq_of_getLsbD_eq
  intro i hi
  have h : (be16 a b).getLsbD (8 + i) = a.getLsbD i := by
    refine (BitVec.getLsbD_append (x := a) (y := b)).trans ?_
    simp
  simpa [hiByte, hi] using h

@[simp] theorem loByte_be16 (a b : Byte) : loByte (be16 a b) = b := by
  apply BitVec.eq_of_getLsbD_eq
  intro i hi
  have h : (be16 a b).getLsbD i = b.getLsbD i := by
    refine (BitVec.getLsbD_append (x := a) (y := b)).trans ?_
    simp [hi]
  simpa [loByte, hi] using h

theorem Kind.mem_all (k : Kind) : k ∈ Kind.all := by
  cases k <;> decide

@[simp] theorem Kind.ofTag_tag (k : Kind) : Kind.ofTag k.tag = some k := by
  cases k <;> decide

theorem Kind.ofTag_eq_some {t : BitVec 4} {k : Kind} (h : Kind.ofTag t = some k) : k.tag = t := by
  simpa using List.find?_some h

theorem Kind.ofTag_eq_none_iff (t : BitVec 4) : Kind.ofTag t = none ↔ 10 < t.toNat := by
  revert t; decide

/-- R19 in the words of the spec. -/
theorem Registry.injective_iff (reg : Registry) :
    reg.injective = true ↔ ∀ k j, k ≠ j → reg.serviceId k ≠ reg.serviceId j := by
  simp only [Registry.injective, List.all_eq_true, Bool.or_eq_true, beq_iff_eq, bne_iff_ne]
  exact ⟨fun h k j hne => (h k k.mem_all j j.mem_all).resolve_left hne,
    fun h k _ j _ => or_iff_not_imp_left.mpr (h k j)⟩

/-- What REG_LOOKUP finds is an entry that holds the identifier. -/
theorem serviceId_of_regLookup {reg : Registry} {v : Half} {k : Kind} (h : regLookup reg v = some k) :
    reg.serviceId k = v := by
  simpa using List.find?_some h

/-- What REG_LOOKUP does not find is in no entry. -/
theorem serviceId_ne_of_regLookup {reg : Registry} {v : Half} (h : regLookup reg v = none) (k : Kind) :
    reg.serviceId k ≠ v := by
  simpa using List.find?_eq_none.mp h k k.mem_all

/-- An identifier in some entry is found. -/
theorem regLookup_isSome (reg : Registry) (k : Kind) : (regLookup reg (reg.serviceId k)).isSome := by
  cases h : regLookup reg (reg.serviceId k) with
  | some _ => rfl
  | none => exact absurd rfl (serviceId_ne_of_regLookup h k)

/-- The encoding of a dispatch row is its six header bytes. -/
theorem encode_dispatchRow (reg : Registry) (k : Kind) (t : Half) :
    encode reg (Instr.dispatchRow k t) = encodeRow reg k t := by
  cases k <;> rfl

end Sys2Proof
end

