-- ==== Sys2Proof/Laws/Memory.lean ====
section
/-! SUPPORT. The input space: the reads under interference, and the canonical form of its cells. -/

namespace Sys2Proof.Machine

@[simp] theorem seenInput_nil_race (input : List Byte) : seenInput [] input = input := by
  cases input <;> simp [seenInput]

@[simp] theorem seenInput_length (race : List (Option Byte)) (input : List Byte) :
    (seenInput race input).length = input.length := by
  induction input generalizing race with
  | nil => simp [seenInput]
  | cons b bs ih =>
    match race with
    | [] => simp
    | none :: rs => simp [seenInput, ih]
    | some _ :: rs => simp [seenInput, ih]

@[simp] theorem memRead8_cons_zero (b : Byte) (bs : List Byte) : memRead8 (b :: bs) 0 = some b := rfl

/-- A 16-bit read gives a value exactly when both of its bytes are present. -/
theorem memRead16_eq_some {input : List Byte} {a : Nat} {v : Half} (h : memRead16 input a = some v) :
    ∃ hi lo, input[a]? = some hi ∧ input[a + 1]? = some lo ∧ v = be16 hi lo := by
  unfold memRead16 at h
  split at h
  · rename_i hi lo h1 h2
    exact ⟨hi, lo, h1, h2, by simpa using h.symm⟩
  · cases h

/-- Cells numbered upwards from any offset are in canonical form. -/
theorem cells_wf_from (input : List Byte) (n : Nat) :
    Memory.wf ((input.zipIdx n).map fun p => (p.2, p.1)) = true := by
  induction input generalizing n with
  | nil => rfl
  | cons b bs ih =>
    cases bs with
    | nil => rfl
    | cons c cs =>
      have := ih (n + 1)
      simp only [List.zipIdx_cons, List.map_cons] at this ⊢
      simp [Memory.wf, this]

/-- The input space is in canonical form, whatever reads of it return. -/
theorem inputCells_wf (input : List Byte) : Memory.wf (inputCells input) = true :=
  cells_wf_from input 0

/-- The cells hold exactly what `MemRead(a, 1)` reads. -/
theorem mem_inputCells_iff (input : List Byte) (a : Nat) (b : Byte) :
    (a, b) ∈ inputCells input ↔ memRead8 input a = some b := by
  simp only [inputCells, List.mem_map, memRead8]
  constructor
  · rintro ⟨⟨c, i⟩, hmem, heq⟩
    obtain ⟨rfl, rfl⟩ : i = a ∧ c = b := by simpa using heq
    simpa [List.mk_mem_zipIdx_iff_getElem?] using hmem
  · intro h
    exact ⟨(b, a), by simpa [List.mk_mem_zipIdx_iff_getElem?] using h, rfl⟩

end Sys2Proof.Machine
end

