-- ==== Sys2Proof/Laws/State.lean ====
section
/-! SUPPORT. One lemma per field per named update of State, each true by rfl. -/

namespace Sys2Proof.Machine

@[simp] theorem Draws.head_nil {α : Type} (a : α) : Draws.head { coming := [], after := a } = a := rfl
@[simp] theorem Draws.head_cons {α : Type} (x a : α) (l : List α) : Draws.head { coming := x :: l, after := a } = x := rfl
@[simp] theorem Draws.tail_nil {α : Type} (a : α) :
    Draws.tail { coming := [], after := a } = { coming := [], after := a } := rfl
@[simp] theorem Draws.tail_cons {α : Type} (x a : α) (l : List α) :
    Draws.tail { coming := x :: l, after := a } = { coming := l, after := a } := rfl

variable (s : State)

@[simp] theorem State.begin_registry : (s.begin).registry = s.registry := rfl
@[simp] theorem State.begin_lenOverflow : (s.begin).lenOverflow = s.lenOverflow := rfl
@[simp] theorem State.begin_requests : (s.begin).requests = s.requests := rfl
@[simp] theorem State.begin_txn : (s.begin).txn = s.txn := rfl
@[simp] theorem State.begin_hdr : (s.begin).hdr = HeaderReg.empty := rfl
@[simp] theorem State.begin_cur : (s.begin).cur = none := rfl
@[simp] theorem State.begin_buf : (s.begin).buf = none := rfl
@[simp] theorem State.begin_resp : (s.begin).resp = none := rfl
@[simp] theorem State.begin_svcOut : (s.begin).svcOut = s.svcOut := rfl
@[simp] theorem State.begin_sink : (s.begin).sink = s.sink := rfl
@[simp] theorem State.begin_serDraws : (s.begin).serDraws = s.serDraws := rfl
@[simp] theorem State.begin_parseDraws : (s.begin).parseDraws = s.parseDraws := rfl
@[simp] theorem State.begin_sinkTurns : (s.begin).sinkTurns = s.sinkTurns := rfl
@[simp] theorem State.begin_inputRace : (s.begin).inputRace = s.inputRace := rfl
@[simp] theorem State.begin_resetLine : (s.begin).resetLine = s.resetLine := rfl
@[simp] theorem State.begin_calls : (s.begin).calls = s.calls := rfl

@[simp] theorem State.accept_registry (r : Issue) (rest : List Issue) : (s.accept r rest).registry = s.registry := rfl
@[simp] theorem State.accept_lenOverflow (r : Issue) (rest : List Issue) : (s.accept r rest).lenOverflow = s.lenOverflow := rfl
@[simp] theorem State.accept_requests (r : Issue) (rest : List Issue) : (s.accept r rest).requests = rest := rfl
@[simp] theorem State.accept_txn (r : Issue) (rest : List Issue) : (s.accept r rest).txn = s.txn := rfl
@[simp] theorem State.accept_hdr (r : Issue) (rest : List Issue) : (s.accept r rest).hdr = s.hdr := rfl
@[simp] theorem State.accept_cur (r : Issue) (rest : List Issue) : (s.accept r rest).cur = s.cur := rfl
@[simp] theorem State.accept_buf (r : Issue) (rest : List Issue) : (s.accept r rest).buf = s.buf := rfl
@[simp] theorem State.accept_resp (r : Issue) (rest : List Issue) : (s.accept r rest).resp = s.resp := rfl
@[simp] theorem State.accept_svcOut (r : Issue) (rest : List Issue) : (s.accept r rest).svcOut = s.svcOut := rfl
@[simp] theorem State.accept_sink (r : Issue) (rest : List Issue) : (s.accept r rest).sink = s.sink := rfl
@[simp] theorem State.accept_serDraws (r : Issue) (rest : List Issue) : (s.accept r rest).serDraws = s.serDraws := rfl
@[simp] theorem State.accept_parseDraws (r : Issue) (rest : List Issue) : (s.accept r rest).parseDraws = s.parseDraws := rfl
@[simp] theorem State.accept_sinkTurns (r : Issue) (rest : List Issue) : (s.accept r rest).sinkTurns = s.sinkTurns := rfl
@[simp] theorem State.accept_inputRace (r : Issue) (rest : List Issue) : (s.accept r rest).inputRace = r.race := rfl
@[simp] theorem State.accept_resetLine (r : Issue) (rest : List Issue) : (s.accept r rest).resetLine = s.resetLine := rfl
@[simp] theorem State.accept_calls (r : Issue) (rest : List Issue) : (s.accept r rest).calls = s.calls := rfl

@[simp] theorem State.writeHdrLen_registry (b : Byte) : (s.writeHdrLen b).registry = s.registry := rfl
@[simp] theorem State.writeHdrLen_lenOverflow (b : Byte) : (s.writeHdrLen b).lenOverflow = s.lenOverflow := rfl
@[simp] theorem State.writeHdrLen_requests (b : Byte) : (s.writeHdrLen b).requests = s.requests := rfl
@[simp] theorem State.writeHdrLen_txn (b : Byte) : (s.writeHdrLen b).txn = s.txn := rfl
@[simp] theorem State.writeHdrLen_hdr (b : Byte) : (s.writeHdrLen b).hdr = { s.hdr with hdrLen := some b } := rfl
@[simp] theorem State.writeHdrLen_cur (b : Byte) : (s.writeHdrLen b).cur = s.cur := rfl
@[simp] theorem State.writeHdrLen_buf (b : Byte) : (s.writeHdrLen b).buf = s.buf := rfl
@[simp] theorem State.writeHdrLen_resp (b : Byte) : (s.writeHdrLen b).resp = s.resp := rfl
@[simp] theorem State.writeHdrLen_svcOut (b : Byte) : (s.writeHdrLen b).svcOut = s.svcOut := rfl
@[simp] theorem State.writeHdrLen_sink (b : Byte) : (s.writeHdrLen b).sink = s.sink := rfl
@[simp] theorem State.writeHdrLen_serDraws (b : Byte) : (s.writeHdrLen b).serDraws = s.serDraws := rfl
@[simp] theorem State.writeHdrLen_parseDraws (b : Byte) : (s.writeHdrLen b).parseDraws = s.parseDraws := rfl
@[simp] theorem State.writeHdrLen_sinkTurns (b : Byte) : (s.writeHdrLen b).sinkTurns = s.sinkTurns := rfl
@[simp] theorem State.writeHdrLen_inputRace (b : Byte) : (s.writeHdrLen b).inputRace = s.inputRace := rfl
@[simp] theorem State.writeHdrLen_resetLine (b : Byte) : (s.writeHdrLen b).resetLine = s.resetLine := rfl
@[simp] theorem State.writeHdrLen_calls (b : Byte) : (s.writeHdrLen b).calls = s.calls := rfl

@[simp] theorem State.writeVersion_registry (b : Byte) : (s.writeVersion b).registry = s.registry := rfl
@[simp] theorem State.writeVersion_lenOverflow (b : Byte) : (s.writeVersion b).lenOverflow = s.lenOverflow := rfl
@[simp] theorem State.writeVersion_requests (b : Byte) : (s.writeVersion b).requests = s.requests := rfl
@[simp] theorem State.writeVersion_txn (b : Byte) : (s.writeVersion b).txn = s.txn := rfl
@[simp] theorem State.writeVersion_hdr (b : Byte) : (s.writeVersion b).hdr = { s.hdr with version := some b } := rfl
@[simp] theorem State.writeVersion_cur (b : Byte) : (s.writeVersion b).cur = s.cur := rfl
@[simp] theorem State.writeVersion_buf (b : Byte) : (s.writeVersion b).buf = s.buf := rfl
@[simp] theorem State.writeVersion_resp (b : Byte) : (s.writeVersion b).resp = s.resp := rfl
@[simp] theorem State.writeVersion_svcOut (b : Byte) : (s.writeVersion b).svcOut = s.svcOut := rfl
@[simp] theorem State.writeVersion_sink (b : Byte) : (s.writeVersion b).sink = s.sink := rfl
@[simp] theorem State.writeVersion_serDraws (b : Byte) : (s.writeVersion b).serDraws = s.serDraws := rfl
@[simp] theorem State.writeVersion_parseDraws (b : Byte) : (s.writeVersion b).parseDraws = s.parseDraws := rfl
@[simp] theorem State.writeVersion_sinkTurns (b : Byte) : (s.writeVersion b).sinkTurns = s.sinkTurns := rfl
@[simp] theorem State.writeVersion_inputRace (b : Byte) : (s.writeVersion b).inputRace = s.inputRace := rfl
@[simp] theorem State.writeVersion_resetLine (b : Byte) : (s.writeVersion b).resetLine = s.resetLine := rfl
@[simp] theorem State.writeVersion_calls (b : Byte) : (s.writeVersion b).calls = s.calls := rfl

@[simp] theorem State.writeService_registry (v : Half) : (s.writeService v).registry = s.registry := rfl
@[simp] theorem State.writeService_lenOverflow (v : Half) : (s.writeService v).lenOverflow = s.lenOverflow := rfl
@[simp] theorem State.writeService_requests (v : Half) : (s.writeService v).requests = s.requests := rfl
@[simp] theorem State.writeService_txn (v : Half) : (s.writeService v).txn = s.txn := rfl
@[simp] theorem State.writeService_hdr (v : Half) : (s.writeService v).hdr = { s.hdr with service := some v } := rfl
@[simp] theorem State.writeService_cur (v : Half) : (s.writeService v).cur = s.cur := rfl
@[simp] theorem State.writeService_buf (v : Half) : (s.writeService v).buf = s.buf := rfl
@[simp] theorem State.writeService_resp (v : Half) : (s.writeService v).resp = s.resp := rfl
@[simp] theorem State.writeService_svcOut (v : Half) : (s.writeService v).svcOut = s.svcOut := rfl
@[simp] theorem State.writeService_sink (v : Half) : (s.writeService v).sink = s.sink := rfl
@[simp] theorem State.writeService_serDraws (v : Half) : (s.writeService v).serDraws = s.serDraws := rfl
@[simp] theorem State.writeService_parseDraws (v : Half) : (s.writeService v).parseDraws = s.parseDraws := rfl
@[simp] theorem State.writeService_sinkTurns (v : Half) : (s.writeService v).sinkTurns = s.sinkTurns := rfl
@[simp] theorem State.writeService_inputRace (v : Half) : (s.writeService v).inputRace = s.inputRace := rfl
@[simp] theorem State.writeService_resetLine (v : Half) : (s.writeService v).resetLine = s.resetLine := rfl
@[simp] theorem State.writeService_calls (v : Half) : (s.writeService v).calls = s.calls := rfl

@[simp] theorem State.writeTotalLen_registry (v : Half) : (s.writeTotalLen v).registry = s.registry := rfl
@[simp] theorem State.writeTotalLen_lenOverflow (v : Half) : (s.writeTotalLen v).lenOverflow = s.lenOverflow := rfl
@[simp] theorem State.writeTotalLen_requests (v : Half) : (s.writeTotalLen v).requests = s.requests := rfl
@[simp] theorem State.writeTotalLen_txn (v : Half) : (s.writeTotalLen v).txn = s.txn := rfl
@[simp] theorem State.writeTotalLen_hdr (v : Half) : (s.writeTotalLen v).hdr = { s.hdr with totalLen := some v } := rfl
@[simp] theorem State.writeTotalLen_cur (v : Half) : (s.writeTotalLen v).cur = s.cur := rfl
@[simp] theorem State.writeTotalLen_buf (v : Half) : (s.writeTotalLen v).buf = s.buf := rfl
@[simp] theorem State.writeTotalLen_resp (v : Half) : (s.writeTotalLen v).resp = s.resp := rfl
@[simp] theorem State.writeTotalLen_svcOut (v : Half) : (s.writeTotalLen v).svcOut = s.svcOut := rfl
@[simp] theorem State.writeTotalLen_sink (v : Half) : (s.writeTotalLen v).sink = s.sink := rfl
@[simp] theorem State.writeTotalLen_serDraws (v : Half) : (s.writeTotalLen v).serDraws = s.serDraws := rfl
@[simp] theorem State.writeTotalLen_parseDraws (v : Half) : (s.writeTotalLen v).parseDraws = s.parseDraws := rfl
@[simp] theorem State.writeTotalLen_sinkTurns (v : Half) : (s.writeTotalLen v).sinkTurns = s.sinkTurns := rfl
@[simp] theorem State.writeTotalLen_inputRace (v : Half) : (s.writeTotalLen v).inputRace = s.inputRace := rfl
@[simp] theorem State.writeTotalLen_resetLine (v : Half) : (s.writeTotalLen v).resetLine = s.resetLine := rfl
@[simp] theorem State.writeTotalLen_calls (v : Half) : (s.writeTotalLen v).calls = s.calls := rfl

@[simp] theorem State.moveCur_registry (n : Nat) : (s.moveCur n).registry = s.registry := rfl
@[simp] theorem State.moveCur_lenOverflow (n : Nat) : (s.moveCur n).lenOverflow = s.lenOverflow := rfl
@[simp] theorem State.moveCur_requests (n : Nat) : (s.moveCur n).requests = s.requests := rfl
@[simp] theorem State.moveCur_txn (n : Nat) : (s.moveCur n).txn = s.txn := rfl
@[simp] theorem State.moveCur_hdr (n : Nat) : (s.moveCur n).hdr = s.hdr := rfl
@[simp] theorem State.moveCur_cur (n : Nat) : (s.moveCur n).cur = some n := rfl
@[simp] theorem State.moveCur_buf (n : Nat) : (s.moveCur n).buf = s.buf := rfl
@[simp] theorem State.moveCur_resp (n : Nat) : (s.moveCur n).resp = s.resp := rfl
@[simp] theorem State.moveCur_svcOut (n : Nat) : (s.moveCur n).svcOut = s.svcOut := rfl
@[simp] theorem State.moveCur_sink (n : Nat) : (s.moveCur n).sink = s.sink := rfl
@[simp] theorem State.moveCur_serDraws (n : Nat) : (s.moveCur n).serDraws = s.serDraws := rfl
@[simp] theorem State.moveCur_parseDraws (n : Nat) : (s.moveCur n).parseDraws = s.parseDraws := rfl
@[simp] theorem State.moveCur_sinkTurns (n : Nat) : (s.moveCur n).sinkTurns = s.sinkTurns := rfl
@[simp] theorem State.moveCur_inputRace (n : Nat) : (s.moveCur n).inputRace = s.inputRace := rfl
@[simp] theorem State.moveCur_resetLine (n : Nat) : (s.moveCur n).resetLine = s.resetLine := rfl
@[simp] theorem State.moveCur_calls (n : Nat) : (s.moveCur n).calls = s.calls := rfl

@[simp] theorem State.fillBuf_registry (bytes : List Byte) : (s.fillBuf bytes).registry = s.registry := rfl
@[simp] theorem State.fillBuf_lenOverflow (bytes : List Byte) : (s.fillBuf bytes).lenOverflow = s.lenOverflow := rfl
@[simp] theorem State.fillBuf_requests (bytes : List Byte) : (s.fillBuf bytes).requests = s.requests := rfl
@[simp] theorem State.fillBuf_txn (bytes : List Byte) : (s.fillBuf bytes).txn = s.txn := rfl
@[simp] theorem State.fillBuf_hdr (bytes : List Byte) : (s.fillBuf bytes).hdr = s.hdr := rfl
@[simp] theorem State.fillBuf_cur (bytes : List Byte) : (s.fillBuf bytes).cur = s.cur := rfl
@[simp] theorem State.fillBuf_buf (bytes : List Byte) : (s.fillBuf bytes).buf = some bytes := rfl
@[simp] theorem State.fillBuf_resp (bytes : List Byte) : (s.fillBuf bytes).resp = s.resp := rfl
@[simp] theorem State.fillBuf_svcOut (bytes : List Byte) : (s.fillBuf bytes).svcOut = s.svcOut := rfl
@[simp] theorem State.fillBuf_sink (bytes : List Byte) : (s.fillBuf bytes).sink = s.sink := rfl
@[simp] theorem State.fillBuf_serDraws (bytes : List Byte) : (s.fillBuf bytes).serDraws = s.serDraws := rfl
@[simp] theorem State.fillBuf_parseDraws (bytes : List Byte) : (s.fillBuf bytes).parseDraws = s.parseDraws := rfl
@[simp] theorem State.fillBuf_sinkTurns (bytes : List Byte) : (s.fillBuf bytes).sinkTurns = s.sinkTurns := rfl
@[simp] theorem State.fillBuf_inputRace (bytes : List Byte) : (s.fillBuf bytes).inputRace = s.inputRace := rfl
@[simp] theorem State.fillBuf_resetLine (bytes : List Byte) : (s.fillBuf bytes).resetLine = s.resetLine := rfl
@[simp] theorem State.fillBuf_calls (bytes : List Byte) : (s.fillBuf bytes).calls = s.calls := rfl

@[simp] theorem State.holdAt_registry (t : Txn) : (s.holdAt t).registry = s.registry := rfl
@[simp] theorem State.holdAt_lenOverflow (t : Txn) : (s.holdAt t).lenOverflow = s.lenOverflow := rfl
@[simp] theorem State.holdAt_requests (t : Txn) : (s.holdAt t).requests = s.requests := rfl
@[simp] theorem State.holdAt_txn (t : Txn) : (s.holdAt t).txn = t := rfl
@[simp] theorem State.holdAt_hdr (t : Txn) : (s.holdAt t).hdr = s.hdr := rfl
@[simp] theorem State.holdAt_cur (t : Txn) : (s.holdAt t).cur = s.cur := rfl
@[simp] theorem State.holdAt_buf (t : Txn) : (s.holdAt t).buf = s.buf := rfl
@[simp] theorem State.holdAt_resp (t : Txn) : (s.holdAt t).resp = s.resp := rfl
@[simp] theorem State.holdAt_svcOut (t : Txn) : (s.holdAt t).svcOut = s.svcOut := rfl
@[simp] theorem State.holdAt_sink (t : Txn) : (s.holdAt t).sink = s.sink := rfl
@[simp] theorem State.holdAt_serDraws (t : Txn) : (s.holdAt t).serDraws = s.serDraws := rfl
@[simp] theorem State.holdAt_parseDraws (t : Txn) : (s.holdAt t).parseDraws = s.parseDraws := rfl
@[simp] theorem State.holdAt_sinkTurns (t : Txn) : (s.holdAt t).sinkTurns = s.sinkTurns := rfl
@[simp] theorem State.holdAt_inputRace (t : Txn) : (s.holdAt t).inputRace = s.inputRace := rfl
@[simp] theorem State.holdAt_resetLine (t : Txn) : (s.holdAt t).resetLine = s.resetLine := rfl
@[simp] theorem State.holdAt_calls (t : Txn) : (s.holdAt t).calls = s.calls := rfl

@[simp] theorem State.drawSer_registry : s.drawSer.registry = s.registry := rfl
@[simp] theorem State.drawSer_lenOverflow : s.drawSer.lenOverflow = s.lenOverflow := rfl
@[simp] theorem State.drawSer_requests : s.drawSer.requests = s.requests := rfl
@[simp] theorem State.drawSer_txn : s.drawSer.txn = s.txn := rfl
@[simp] theorem State.drawSer_hdr : s.drawSer.hdr = s.hdr := rfl
@[simp] theorem State.drawSer_cur : s.drawSer.cur = s.cur := rfl
@[simp] theorem State.drawSer_buf : s.drawSer.buf = s.buf := rfl
@[simp] theorem State.drawSer_resp : s.drawSer.resp = s.resp := rfl
@[simp] theorem State.drawSer_svcOut : s.drawSer.svcOut = s.svcOut := rfl
@[simp] theorem State.drawSer_sink : s.drawSer.sink = s.sink := rfl
@[simp] theorem State.drawSer_serDraws : s.drawSer.serDraws = s.serDraws.tail := rfl
@[simp] theorem State.drawSer_parseDraws : s.drawSer.parseDraws = s.parseDraws := rfl
@[simp] theorem State.drawSer_sinkTurns : s.drawSer.sinkTurns = s.sinkTurns := rfl
@[simp] theorem State.drawSer_inputRace : s.drawSer.inputRace = s.inputRace := rfl
@[simp] theorem State.drawSer_resetLine : s.drawSer.resetLine = s.resetLine := rfl
@[simp] theorem State.drawSer_calls : s.drawSer.calls = s.calls := rfl

@[simp] theorem State.drawParse_registry : s.drawParse.registry = s.registry := rfl
@[simp] theorem State.drawParse_lenOverflow : s.drawParse.lenOverflow = s.lenOverflow := rfl
@[simp] theorem State.drawParse_requests : s.drawParse.requests = s.requests := rfl
@[simp] theorem State.drawParse_txn : s.drawParse.txn = s.txn := rfl
@[simp] theorem State.drawParse_hdr : s.drawParse.hdr = s.hdr := rfl
@[simp] theorem State.drawParse_cur : s.drawParse.cur = s.cur := rfl
@[simp] theorem State.drawParse_buf : s.drawParse.buf = s.buf := rfl
@[simp] theorem State.drawParse_resp : s.drawParse.resp = s.resp := rfl
@[simp] theorem State.drawParse_svcOut : s.drawParse.svcOut = s.svcOut := rfl
@[simp] theorem State.drawParse_sink : s.drawParse.sink = s.sink := rfl
@[simp] theorem State.drawParse_serDraws : s.drawParse.serDraws = s.serDraws := rfl
@[simp] theorem State.drawParse_parseDraws : s.drawParse.parseDraws = s.parseDraws.tail := rfl
@[simp] theorem State.drawParse_sinkTurns : s.drawParse.sinkTurns = s.sinkTurns := rfl
@[simp] theorem State.drawParse_inputRace : s.drawParse.inputRace = s.inputRace := rfl
@[simp] theorem State.drawParse_resetLine : s.drawParse.resetLine = s.resetLine := rfl
@[simp] theorem State.drawParse_calls : s.drawParse.calls = s.calls := rfl

@[simp] theorem State.drawSink_registry (bytes : List Byte) (rest : List SinkTurn) : (s.drawSink bytes rest).registry = s.registry := rfl
@[simp] theorem State.drawSink_lenOverflow (bytes : List Byte) (rest : List SinkTurn) : (s.drawSink bytes rest).lenOverflow = s.lenOverflow := rfl
@[simp] theorem State.drawSink_requests (bytes : List Byte) (rest : List SinkTurn) : (s.drawSink bytes rest).requests = s.requests := rfl
@[simp] theorem State.drawSink_txn (bytes : List Byte) (rest : List SinkTurn) : (s.drawSink bytes rest).txn = s.txn := rfl
@[simp] theorem State.drawSink_hdr (bytes : List Byte) (rest : List SinkTurn) : (s.drawSink bytes rest).hdr = s.hdr := rfl
@[simp] theorem State.drawSink_cur (bytes : List Byte) (rest : List SinkTurn) : (s.drawSink bytes rest).cur = s.cur := rfl
@[simp] theorem State.drawSink_buf (bytes : List Byte) (rest : List SinkTurn) : (s.drawSink bytes rest).buf = s.buf := rfl
@[simp] theorem State.drawSink_resp (bytes : List Byte) (rest : List SinkTurn) : (s.drawSink bytes rest).resp = s.resp := rfl
@[simp] theorem State.drawSink_svcOut (bytes : List Byte) (rest : List SinkTurn) : (s.drawSink bytes rest).svcOut = s.svcOut := rfl
@[simp] theorem State.drawSink_sink (bytes : List Byte) (rest : List SinkTurn) : (s.drawSink bytes rest).sink = s.sink ++ bytes := rfl
@[simp] theorem State.drawSink_serDraws (bytes : List Byte) (rest : List SinkTurn) : (s.drawSink bytes rest).serDraws = s.serDraws := rfl
@[simp] theorem State.drawSink_parseDraws (bytes : List Byte) (rest : List SinkTurn) : (s.drawSink bytes rest).parseDraws = s.parseDraws := rfl
@[simp] theorem State.drawSink_sinkTurns (bytes : List Byte) (rest : List SinkTurn) : (s.drawSink bytes rest).sinkTurns = rest := rfl
@[simp] theorem State.drawSink_inputRace (bytes : List Byte) (rest : List SinkTurn) : (s.drawSink bytes rest).inputRace = s.inputRace := rfl
@[simp] theorem State.drawSink_resetLine (bytes : List Byte) (rest : List SinkTurn) : (s.drawSink bytes rest).resetLine = s.resetLine := rfl
@[simp] theorem State.drawSink_calls (bytes : List Byte) (rest : List SinkTurn) : (s.drawSink bytes rest).calls = s.calls := rfl

@[simp] theorem State.logCall_registry (c : Call) : (s.logCall c).registry = s.registry := rfl
@[simp] theorem State.logCall_lenOverflow (c : Call) : (s.logCall c).lenOverflow = s.lenOverflow := rfl
@[simp] theorem State.logCall_requests (c : Call) : (s.logCall c).requests = s.requests := rfl
@[simp] theorem State.logCall_txn (c : Call) : (s.logCall c).txn = s.txn := rfl
@[simp] theorem State.logCall_hdr (c : Call) : (s.logCall c).hdr = s.hdr := rfl
@[simp] theorem State.logCall_cur (c : Call) : (s.logCall c).cur = s.cur := rfl
@[simp] theorem State.logCall_buf (c : Call) : (s.logCall c).buf = s.buf := rfl
@[simp] theorem State.logCall_resp (c : Call) : (s.logCall c).resp = s.resp := rfl
@[simp] theorem State.logCall_svcOut (c : Call) : (s.logCall c).svcOut = s.svcOut := rfl
@[simp] theorem State.logCall_sink (c : Call) : (s.logCall c).sink = s.sink := rfl
@[simp] theorem State.logCall_serDraws (c : Call) : (s.logCall c).serDraws = s.serDraws := rfl
@[simp] theorem State.logCall_parseDraws (c : Call) : (s.logCall c).parseDraws = s.parseDraws := rfl
@[simp] theorem State.logCall_sinkTurns (c : Call) : (s.logCall c).sinkTurns = s.sinkTurns := rfl
@[simp] theorem State.logCall_inputRace (c : Call) : (s.logCall c).inputRace = s.inputRace := rfl
@[simp] theorem State.logCall_resetLine (c : Call) : (s.logCall c).resetLine = s.resetLine := rfl
@[simp] theorem State.logCall_calls (c : Call) : (s.logCall c).calls = s.calls ++ [c] := rfl

@[simp] theorem State.storeSvc_registry (k : Kind) (inst : Instance) : (s.storeSvc k inst).registry = s.registry := rfl
@[simp] theorem State.storeSvc_lenOverflow (k : Kind) (inst : Instance) : (s.storeSvc k inst).lenOverflow = s.lenOverflow := rfl
@[simp] theorem State.storeSvc_requests (k : Kind) (inst : Instance) : (s.storeSvc k inst).requests = s.requests := rfl
@[simp] theorem State.storeSvc_txn (k : Kind) (inst : Instance) : (s.storeSvc k inst).txn = s.txn := rfl
@[simp] theorem State.storeSvc_hdr (k : Kind) (inst : Instance) : (s.storeSvc k inst).hdr = s.hdr := rfl
@[simp] theorem State.storeSvc_cur (k : Kind) (inst : Instance) : (s.storeSvc k inst).cur = s.cur := rfl
@[simp] theorem State.storeSvc_buf (k : Kind) (inst : Instance) : (s.storeSvc k inst).buf = s.buf := rfl
@[simp] theorem State.storeSvc_resp (k : Kind) (inst : Instance) : (s.storeSvc k inst).resp = s.resp := rfl
@[simp] theorem State.storeSvc_svcOut (k : Kind) (inst : Instance) : (s.storeSvc k inst).svcOut = { kind := k, inst := inst } := rfl
@[simp] theorem State.storeSvc_sink (k : Kind) (inst : Instance) : (s.storeSvc k inst).sink = s.sink := rfl
@[simp] theorem State.storeSvc_serDraws (k : Kind) (inst : Instance) : (s.storeSvc k inst).serDraws = s.serDraws := rfl
@[simp] theorem State.storeSvc_parseDraws (k : Kind) (inst : Instance) : (s.storeSvc k inst).parseDraws = s.parseDraws := rfl
@[simp] theorem State.storeSvc_sinkTurns (k : Kind) (inst : Instance) : (s.storeSvc k inst).sinkTurns = s.sinkTurns := rfl
@[simp] theorem State.storeSvc_inputRace (k : Kind) (inst : Instance) : (s.storeSvc k inst).inputRace = s.inputRace := rfl
@[simp] theorem State.storeSvc_resetLine (k : Kind) (inst : Instance) : (s.storeSvc k inst).resetLine = s.resetLine := rfl
@[simp] theorem State.storeSvc_calls (k : Kind) (inst : Instance) : (s.storeSvc k inst).calls = s.calls := rfl

@[simp] theorem State.respond_registry (r : Response) : (s.respond r).registry = s.registry := rfl
@[simp] theorem State.respond_lenOverflow (r : Response) : (s.respond r).lenOverflow = s.lenOverflow := rfl
@[simp] theorem State.respond_requests (r : Response) : (s.respond r).requests = s.requests := rfl
@[simp] theorem State.respond_txn (r : Response) : (s.respond r).txn = .idle := rfl
@[simp] theorem State.respond_hdr (r : Response) : (s.respond r).hdr = HeaderReg.empty := rfl
@[simp] theorem State.respond_cur (r : Response) : (s.respond r).cur = none := rfl
@[simp] theorem State.respond_buf (r : Response) : (s.respond r).buf = none := rfl
@[simp] theorem State.respond_resp (r : Response) : (s.respond r).resp = some r := rfl
@[simp] theorem State.respond_svcOut (r : Response) : (s.respond r).svcOut = s.svcOut := rfl
@[simp] theorem State.respond_sink (r : Response) : (s.respond r).sink = s.sink := rfl
@[simp] theorem State.respond_serDraws (r : Response) : (s.respond r).serDraws = s.serDraws := rfl
@[simp] theorem State.respond_parseDraws (r : Response) : (s.respond r).parseDraws = s.parseDraws := rfl
@[simp] theorem State.respond_sinkTurns (r : Response) : (s.respond r).sinkTurns = s.sinkTurns := rfl
@[simp] theorem State.respond_inputRace (r : Response) : (s.respond r).inputRace = [] := rfl
@[simp] theorem State.respond_resetLine (r : Response) : (s.respond r).resetLine = s.resetLine := rfl
@[simp] theorem State.respond_calls (r : Response) : (s.respond r).calls = s.calls := rfl

@[simp] theorem State.applyReset_registry : (s.applyReset).registry = s.registry := rfl
@[simp] theorem State.applyReset_lenOverflow : (s.applyReset).lenOverflow = s.lenOverflow := rfl
@[simp] theorem State.applyReset_requests : (s.applyReset).requests = s.requests := rfl
@[simp] theorem State.applyReset_txn : (s.applyReset).txn = .idle := rfl
@[simp] theorem State.applyReset_hdr : (s.applyReset).hdr = HeaderReg.empty := rfl
@[simp] theorem State.applyReset_cur : (s.applyReset).cur = none := rfl
@[simp] theorem State.applyReset_buf : (s.applyReset).buf = none := rfl
@[simp] theorem State.applyReset_resp : (s.applyReset).resp = none := rfl
@[simp] theorem State.applyReset_svcOut : (s.applyReset).svcOut = s.svcOut := rfl
@[simp] theorem State.applyReset_sink : (s.applyReset).sink = s.sink := rfl
@[simp] theorem State.applyReset_serDraws : (s.applyReset).serDraws = s.serDraws := rfl
@[simp] theorem State.applyReset_parseDraws : (s.applyReset).parseDraws = s.parseDraws := rfl
@[simp] theorem State.applyReset_sinkTurns : (s.applyReset).sinkTurns = s.sinkTurns := rfl
@[simp] theorem State.applyReset_inputRace : (s.applyReset).inputRace = [] := rfl
@[simp] theorem State.applyReset_resetLine : (s.applyReset).resetLine = s.resetLine := rfl
@[simp] theorem State.applyReset_calls : (s.applyReset).calls = s.calls := rfl

@[simp] theorem State.passMoment_registry : (s.passMoment).registry = s.registry := rfl
@[simp] theorem State.passMoment_lenOverflow : (s.passMoment).lenOverflow = s.lenOverflow := rfl
@[simp] theorem State.passMoment_requests : (s.passMoment).requests = s.requests := rfl
@[simp] theorem State.passMoment_txn : (s.passMoment).txn = s.txn := rfl
@[simp] theorem State.passMoment_hdr : (s.passMoment).hdr = s.hdr := rfl
@[simp] theorem State.passMoment_cur : (s.passMoment).cur = s.cur := rfl
@[simp] theorem State.passMoment_buf : (s.passMoment).buf = s.buf := rfl
@[simp] theorem State.passMoment_resp : (s.passMoment).resp = s.resp := rfl
@[simp] theorem State.passMoment_svcOut : (s.passMoment).svcOut = s.svcOut := rfl
@[simp] theorem State.passMoment_sink : (s.passMoment).sink = s.sink := rfl
@[simp] theorem State.passMoment_serDraws : (s.passMoment).serDraws = s.serDraws := rfl
@[simp] theorem State.passMoment_parseDraws : (s.passMoment).parseDraws = s.parseDraws := rfl
@[simp] theorem State.passMoment_sinkTurns : (s.passMoment).sinkTurns = s.sinkTurns := rfl
@[simp] theorem State.passMoment_inputRace : (s.passMoment).inputRace = s.inputRace := rfl
@[simp] theorem State.passMoment_resetLine : (s.passMoment).resetLine = s.resetLine.tail := rfl
@[simp] theorem State.passMoment_calls : (s.passMoment).calls = s.calls := rfl

@[simp] theorem State.moment_of_nil (h : s.resetLine = []) : s.moment = .low := by simp [State.moment, h]
@[simp] theorem State.moment_of_cons {m : ResetMoment} {ms : List ResetMoment} (h : s.resetLine = m :: ms) :
    s.moment = m := by simp [State.moment, h]

@[simp] theorem State.raise_eq_respond (st : Status) (n : Nat) (err : Option ErrVal) :
    s.raise st n err = s.respond (Response.bare st n err) := rfl
@[simp] theorem State.returnOk_eq_respond (r : Response) : s.returnOk r = s.respond r := rfl

end Sys2Proof.Machine
end

