-- ==== Sys2Proof/Laws/Ops.lean ====
section
/-! SUPPORT. For each shared operation, once, everything it can do. -/

namespace Sys2Proof.Machine

/-- Reading `H` succeeds exactly when all four fields hold a value. -/
theorem readHeader_eq_ok_iff (r : HeaderReg) (h : Header) :
    readHeader r = .ok h ↔
      r = { hdrLen := some h.hdrLen, version := some h.version, service := some h.service, totalLen := some h.totalLen } := by
  obtain ⟨l, v, sv, t⟩ := r
  obtain ⟨l', v', sv', t'⟩ := h
  cases l <;> cases v <;> cases sv <;> cases t <;> simp [readHeader]

@[simp] theorem readHeader_full (l v : Byte) (sv t : Half) :
    readHeader { hdrLen := some l, version := some v, service := some sv, totalLen := some t } =
      .ok { hdrLen := l, version := v, service := sv, totalLen := t } := rfl

@[simp] theorem Header.bytes_length (h : Header) : h.bytes.length = 6 := rfl

/-- The header HDR_PACK writes. -/
def builtHeader (sid : Half) (bodyLen : Nat) : Header :=
  { hdrLen := 0x06, version := 0x10, service := sid, totalLen := BitVec.ofNat 16 (bodyLen + 6) }

/-- HDR_PACK's body: LEN_OVERFLOW exactly for a length that does not fit under REFUSE, else the built header in `H`. -/
theorem buildHeader_eq (sid : Half) (bodyLen : Nat) (s : State) :
    buildHeader sid bodyLen s =
      if 65529 < bodyLen ∧ s.lenOverflow = .refuse then none
      else some { s with hdr := { hdrLen := some 0x06, version := some 0x10, service := some sid,
                                  totalLen := some (BitVec.ofNat 16 (bodyLen + 6)) } } := by
  have : (bodyLen + Config.hdrSize > 0xFFFF) ↔ 65529 < bodyLen := by simp [Config.hdrSize]; omega
  simp only [buildHeader, this]
  rfl

/-- What the scan of an input comes to, by the shape of the input. -/
theorem scanHeader_eq (input : List Byte) (s : State) :
    scanHeader input s =
      match input with
      | [] => .stop .shortInput (s.moveCur 0)
      | b0 :: r0 =>
        if b0 ≠ 0x06 then .stop .hdrLen { s with hdr := { s.hdr with hdrLen := some b0 }, cur := some 1 } else
        match r0 with
        | [] => .stop .shortInput { s with hdr := { s.hdr with hdrLen := some b0 }, cur := some 1 }
        | b1 :: r1 =>
          if b1 ≠ 0x10 then
            .stop .hdrVer { s with hdr := { s.hdr with hdrLen := some b0, version := some b1 }, cur := some 2 } else
          match r1 with
          | b2 :: b3 :: b4 :: b5 :: _ =>
            .done { s with hdr := { hdrLen := some b0, version := some b1, service := some (be16 b2 b3),
                                    totalLen := some (be16 b4 b5) }, cur := some 6 }
          | b2 :: b3 :: _ =>
            .stop .shortInput { s with hdr := { s.hdr with hdrLen := some b0, version := some b1,
                                                           service := some (be16 b2 b3) }, cur := some 4 }
          | _ => .stop .shortInput { s with hdr := { s.hdr with hdrLen := some b0, version := some b1 }, cur := some 2 } := by
  have hl : Config.hdrLenConst = 0x06 := rfl
  have hv : Config.protoVerConst = 0x10 := rfl
  match input with
  | [] => rfl
  | [b0] => simp [scanHeader, memRead8, hl, State.moveCur, State.writeHdrLen]
  | [b0, b1] =>
    simp [scanHeader, memRead8, memRead16, hl, hv, State.moveCur, State.writeHdrLen, State.writeVersion]
  | [b0, b1, b2] =>
    simp [scanHeader, memRead8, memRead16, hl, hv, State.moveCur, State.writeHdrLen, State.writeVersion]
  | [b0, b1, b2, b3] =>
    simp [scanHeader, memRead8, memRead16, hl, hv, State.moveCur, State.writeHdrLen, State.writeVersion,
      State.writeService]
  | [b0, b1, b2, b3, b4] =>
    simp [scanHeader, memRead8, memRead16, hl, hv, State.moveCur, State.writeHdrLen, State.writeVersion,
      State.writeService]
  | b0 :: b1 :: b2 :: b3 :: b4 :: b5 :: body =>
    simp [scanHeader, memRead8, memRead16, hl, hv, State.moveCur, State.writeHdrLen, State.writeVersion,
      State.writeService, State.writeTotalLen]

/-- A scan that is done has read six bytes with both constants in place, and left them in `H` and 6 in the cursor. -/
theorem scanHeader_done {input : List Byte} {s s1 : State} (h : scanHeader input s = .done s1) :
    ∃ b2 b3 b4 b5 body, input = 0x06 :: 0x10 :: b2 :: b3 :: b4 :: b5 :: body ∧
      s1 = { s with hdr := { hdrLen := some 0x06, version := some 0x10, service := some (be16 b2 b3),
                             totalLen := some (be16 b4 b5) }, cur := some 6 } := by
  rw [scanHeader_eq] at h
  split at h
  · cases h
  · split at h
    · cases h
    · rename_i h0
      split at h
      · cases h
      · split at h
        · cases h
        · rename_i h1
          obtain rfl := not_not.mp h0
          obtain rfl := not_not.mp h1
          split at h
          · rename_i b2 b3 b4 b5 body
            exact ⟨b2, b3, b4, b5, body, rfl, by injection h with h; exact h.symm⟩
          · cases h
          · cases h

/-- A scan that stops has a cursor of 0, 1, 2 or 4, one of three statuses, and has changed only `H` and the cursor. -/
theorem scanHeader_stop {input : List Byte} {s s1 : State} {st : Status} (h : scanHeader input s = .stop st s1) :
    (st = .shortInput ∨ st = .hdrLen ∨ st = .hdrVer) ∧ ∃ n r, n ≤ 4 ∧ s1 = { s with hdr := r, cur := some n } := by
  rw [scanHeader_eq] at h
  split at h
  · injection h with h1 h2; subst h1; subst h2; exact ⟨.inl rfl, 0, _, by decide, rfl⟩
  · split at h
    · injection h with h1 h2; subst h1; subst h2; exact ⟨.inr (.inl rfl), 1, _, by decide, rfl⟩
    · split at h
      · injection h with h1 h2; subst h1; subst h2; exact ⟨.inl rfl, 1, _, by decide, rfl⟩
      · split at h
        · injection h with h1 h2; subst h1; subst h2; exact ⟨.inr (.inr rfl), 2, _, by decide, rfl⟩
        · split at h
          · cases h
          · injection h with h1 h2; subst h1; subst h2; exact ⟨.inl rfl, 4, _, by decide, rfl⟩
          · injection h with h1 h2; subst h1; subst h2; exact ⟨.inl rfl, 2, _, by decide, rfl⟩

/-- The sink's turn, when it answers a next state: the transaction waits on with some bytes more, ends with a response, or is
aborted by a reset, which leaves the sink as it was. -/
theorem sinkTurn_cases {p : List Byte} {acc : Nat} {s t : State} (h : sinkTurn p acc s = .next t) :
    (∃ bytes rest acc', t = (s.drawSink bytes rest).holdAt (.sinkWait acc') ∧ (acc' = acc ∨ acc ≤ acc' ∧ acc' ≤ p.length)) ∨
    (∃ bytes rest, t = (s.drawSink bytes rest).respond (Response.okPack p.length)) ∨
    (∃ bytes rest k e, t = (s.drawSink bytes rest).respond (Response.bare .sinkWrite k (some e)) ∧ acc ≤ k ∧ k ≤ p.length) ∨
    (∃ rest, s.sinkTurns = .resetHits :: rest ∧ t = (s.drawSink [] rest).applyReset) := by
  unfold sinkTurn at h
  split at h
  · rename_i h0
    injection h with h; subst h
    exact .inl ⟨[], [], acc, by simp [State.drawSink, State.holdAt, ← h0], .inl rfl⟩
  · split at h
    · rename_i hle
      injection h with h; subst h
      exact .inl ⟨_, _, _, rfl, .inr ⟨by omega, hle⟩⟩
    · cases h
  · injection h with h; subst h
    exact .inl ⟨_, _, _, rfl, .inl rfl⟩
  · injection h with h; subst h
    exact .inr (.inl ⟨_, _, rfl⟩)
  · split at h
    · rename_i hle
      injection h with h; subst h
      exact .inr (.inr (.inl ⟨_, _, _, _, rfl, hle⟩))
    · cases h
  · split at h
    · injection h with h; subst h
      exact .inr (.inl ⟨_, _, rfl⟩)
    · split at h <;> cases h
  · rename_i h0
    injection h with h; subst h
    exact .inr (.inr (.inr ⟨_, h0, rfl⟩))

/-- The sink's turn never faults. -/
theorem sinkTurn_no_fault (p : List Byte) (acc : Nat) (s : State) (f : Fault) : sinkTurn p acc s ≠ .fault f := by
  unfold sinkTurn
  split <;> (try split) <;> (try split) <;> simp

/-- The UNPACK side of an entry, when it answers a next state: it stores an instance, or forwards an error. -/
theorem routeToParser_cases {k : Kind} {input : List Byte} {s t : State} (h : routeToParser k input s = .next t) :
    (∃ c m inst, t = (((s.drawParse.logCall c).moveCur (6 + m)).storeSvc k inst).respond
        (Response.okUnpack (6 + m) k inst)) ∨
    (∃ c m e, t = ((s.drawParse.logCall c).moveCur (6 + m)).respond (Response.bare .bodyParse (6 + m) (some e))) := by
  unfold routeToParser at h
  simp only at h
  split at h
  · split at h
    · injection h with h; subst h
      exact .inl ⟨_, _, _, rfl⟩
    · cases h
  · split at h
    · injection h with h; subst h
      exact .inr ⟨_, _, _, rfl⟩
    · cases h

/-- The UNPACK side of an entry never faults. -/
theorem routeToParser_no_fault (k : Kind) (input : List Byte) (s : State) (f : Fault) :
    routeToParser k input s ≠ .fault f := by
  unfold routeToParser
  simp only
  split <;> (try split) <;> simp

/-- The PACK side of an entry: it forwards the serializer's error, overflows, or offers the packet to the sink. -/
theorem routeToSerializer_cases (k : Kind) (x : Payload) (s : State) :
    (∃ e, s.serDraws.head = .err e ∧ routeToSerializer k x s =
      .next ((s.drawSer.logCall (.serialize k x)).respond (Response.bare .serialize 0 (some e)))) ∨
    (∃ bytes, s.serDraws.head = .ok bytes ∧ (65529 < bytes.length ∧ s.lenOverflow = .refuse) ∧ routeToSerializer k x s =
      .next (((s.drawSer.logCall (.serialize k x)).fillBuf bytes).respond (Response.bare .lenOverflow 0 none))) ∨
    (∃ bytes, s.serDraws.head = .ok bytes ∧ ¬ (65529 < bytes.length ∧ s.lenOverflow = .refuse) ∧ routeToSerializer k x s =
      sinkTurn ((builtHeader (s.registry.serviceId k) bytes.length).bytes ++ bytes) 0
        { s with serDraws := s.serDraws.tail, buf := some bytes,
                 hdr := { hdrLen := some 0x06, version := some 0x10, service := some (s.registry.serviceId k),
                          totalLen := some (BitVec.ofNat 16 (bytes.length + 6)) },
                 calls := s.calls ++ [.serialize k x] ++
                   [.offer ((builtHeader (s.registry.serviceId k) bytes.length).bytes ++ bytes)] }) := by
  unfold routeToSerializer
  split
  · rename_i e he
    exact .inl ⟨e, he, rfl⟩
  · rename_i bytes hok
    by_cases hl : 65529 < bytes.length ∧ s.lenOverflow = .refuse
    · refine .inr (.inl ⟨bytes, hok, hl, ?_⟩)
      simp only [buildHeader_eq]
      exact if_pos hl ▸ rfl
    · refine .inr (.inr ⟨bytes, hok, hl, ?_⟩)
      simp only [buildHeader_eq, State.fillBuf, State.logCall, State.drawSer, if_neg hl]
      rfl

/-- The meaning of a dispatch row is its kind's entry. -/
@[simp] theorem exec_dispatchRow (k : Kind) (t : Half) (s : State) :
    exec (Instr.dispatchRow k t) s = dispatchEntry k s := by
  cases k <;> rfl

end Sys2Proof.Machine
end

