-- ==== Sys2Proof/Laws/PerInstr.lean ====
section
/-! SUPPORT. The per-instruction family EncodedForm: the form of each row's encoding (30_encoding.md R42, R47). -/

namespace Sys2Proof.Laws

/-- The encoding of an instruction is a request with the row's `op`, or a 6-byte header that starts 06 10. -/
def EncodedForm.Statement (i : Instr) : Prop :=
  ∀ reg : Registry, match encode reg i with
    | .request r    => decodeRequest r = i
    | .header bytes => bytes.length = 6 ∧ bytes.take 2 = [0x06, 0x10]

theorem EncodedForm.hdrPack (sid : Half) (bodyLen : Nat) : EncodedForm.Statement (.hdrPack sid bodyLen) := fun _ => rfl
theorem EncodedForm.hdrUnpack (input : List Byte) : EncodedForm.Statement (.hdrUnpack input) := fun _ => rfl
theorem EncodedForm.pack (k : BitVec 4) (x : Payload) : EncodedForm.Statement (.pack k x) := fun _ => rfl
theorem EncodedForm.unpack (input : List Byte) : EncodedForm.Statement (.unpack input) := fun _ => rfl
theorem EncodedForm.connReq (totalLen : Half) : EncodedForm.Statement (.connReq totalLen) := fun _ => ⟨rfl, rfl⟩
theorem EncodedForm.connRes (totalLen : Half) : EncodedForm.Statement (.connRes totalLen) := fun _ => ⟨rfl, rfl⟩
theorem EncodedForm.connstateReq (totalLen : Half) : EncodedForm.Statement (.connstateReq totalLen) := fun _ => ⟨rfl, rfl⟩
theorem EncodedForm.connstateRes (totalLen : Half) : EncodedForm.Statement (.connstateRes totalLen) := fun _ => ⟨rfl, rfl⟩
theorem EncodedForm.discReq (totalLen : Half) : EncodedForm.Statement (.discReq totalLen) := fun _ => ⟨rfl, rfl⟩
theorem EncodedForm.discRes (totalLen : Half) : EncodedForm.Statement (.discRes totalLen) := fun _ => ⟨rfl, rfl⟩
theorem EncodedForm.tunnelReq (totalLen : Half) : EncodedForm.Statement (.tunnelReq totalLen) := fun _ => ⟨rfl, rfl⟩
theorem EncodedForm.tunnelRes (totalLen : Half) : EncodedForm.Statement (.tunnelRes totalLen) := fun _ => ⟨rfl, rfl⟩
theorem EncodedForm.routingInd (totalLen : Half) : EncodedForm.Statement (.routingInd totalLen) := fun _ => ⟨rfl, rfl⟩
theorem EncodedForm.routingLost (totalLen : Half) : EncodedForm.Statement (.routingLost totalLen) := fun _ => ⟨rfl, rfl⟩
theorem EncodedForm.routingBusy (totalLen : Half) : EncodedForm.Statement (.routingBusy totalLen) := fun _ => ⟨rfl, rfl⟩

end Sys2Proof.Laws
end

