-- ==== Sys2Proof/Laws/Run.lean ====
section
/-! SUPPORT. Runs of several steps, one step at a time. -/

namespace Sys2Proof.Machine

@[simp] theorem runSteps_zero (s : State) : runSteps 0 s = .next s := rfl

/-- The host's run of any machine, one step at a time. -/
theorem host_run_succ (M : Host.Core) (n : Nat) (s : M.State) :
    (∀ t, M.step s = .next t → M.run (n + 1) s = M.run n t) ∧
    (∀ f, M.step s = .fault f → M.run (n + 1) s = .fault f) ∧
    (∀ r, M.step s = .refused r → M.run (n + 1) s = .refused r) := by
  refine ⟨fun t h => ?_, fun f h => ?_, fun r h => ?_⟩ <;> rw [Host.Core.run, h]

/-- `runSteps` is the host's run of the machine. -/
theorem runSteps_eq_host_run (n : Nat) (s : State) : runSteps n s = Host.Core.run core n s := by
  induction n generalizing s with
  | zero => rfl
  | succ n ih =>
    rw [runSteps]
    have hc : core.step s = step s := rfl
    cases h : step s with
    | next t => exact (ih t).trans ((host_run_succ core n s).1 t (hc.trans h)).symm
    | fault f => exact ((host_run_succ core n s).2.1 f (hc.trans h)).symm
    | refused r => exact ((host_run_succ core n s).2.2 r (hc.trans h)).symm

/-- A run whose first step answers a next state goes on from it. -/
theorem runSteps_succ_of_next {s t : State} (h : step s = .next t) (n : Nat) : runSteps (n + 1) s = runSteps n t := by
  simp only [runSteps, h]

/-- A run ends at a fault of its first step. -/
theorem runSteps_succ_of_fault {s : State} {f : Fault} (h : step s = .fault f) (n : Nat) : runSteps (n + 1) s = .fault f := by
  simp only [runSteps, h]

/-- A run ends at a refusal of its first step. -/
theorem runSteps_succ_of_refused {s : State} {r : Refusal} (h : step s = .refused r) (n : Nat) :
    runSteps (n + 1) s = .refused r := by
  simp only [runSteps, h]

/-- What holds of a state and is kept by every step holds at the end of every run. -/
theorem runSteps_invariant {P : State → Prop} (keep : ∀ s t, P s → step s = .next t → P t) (n : Nat) {s t : State}
    (h0 : P s) (h : runSteps n s = .next t) : P t := by
  induction n generalizing s with
  | zero => cases h; exact h0
  | succ n ih =>
    cases hs : step s with
    | next u => exact ih (keep s u h0 hs) (runSteps_succ_of_next hs n ▸ h)
    | fault f => rw [runSteps_succ_of_fault hs n] at h; cases h
    | refused r => rw [runSteps_succ_of_refused hs n] at h; cases h

end Sys2Proof.Machine
end

