-- ==== Sys2Proof/Laws/Reset.lean ====
section
/-! SUPPORT. What a step can do: what it fetches, the exchange it runs, and what a reset that lands in it leaves. -/

namespace Sys2Proof.Machine

/-- A header that decodes is a dispatch row. -/
theorem decodeHeader_eq_row {reg : Registry} {bytes : List Byte} {i : Instr} (h : decodeHeader reg bytes = .ok i) :
    ∃ k t, i = Instr.dispatchRow k t := by
  unfold decodeHeader at h
  repeat' split at h
  all_goals first | exact ⟨_, _, (Except.ok.inj h).symm⟩ | cases h

@[simp] theorem dispatchRow_wellFormed (k : Kind) (t : Half) : (Instr.dispatchRow k t).wellFormed = true := by
  cases k <;> rfl

/-- The one instruction that is not well formed, PACK of a reserved tag, is refused (60_exceptions.md R97). -/
theorem exec_of_not_wellFormed {i : Instr} (h : i.wellFormed = false) (s : State) :
    ∃ r, exec i s = .refused r := by
  cases i <;> try cases h
  case pack k x =>
    have hk : Kind.ofTag k = none := (Kind.ofTag_eq_none_iff k).mpr (by simpa [Instr.wellFormed, tagNamesKind] using h)
    exact ⟨.reservedKindTag k, by simp only [exec, execPack, hk]⟩

/-- What a step runs is the operation on the port of an idle instance, its request accepted, or a dispatch row in the state
as it stands. -/
theorem fetch_run_cases {i : Instr} {s s1 : State} (h : fetch s = .run i s1) :
    (∃ r rest, s.txn = .idle ∧ s.requests = r :: rest ∧ i = decodeRequest r.request ∧ s1 = s.accept r rest) ∨
    (s.txn ≠ .idle ∧ s1 = s ∧ ∃ k t, i = Instr.dispatchRow k t) := by
  unfold fetch at h
  split at h
  · rename_i hi
    unfold fetchRequest at h
    split at h
    · cases h
    · rename_i r rest hr
      injection h with h1 h2
      exact .inl ⟨r, rest, hi, hr, h1.symm, h2.symm⟩
  · rename_i hm
    unfold fetchEntry at h
    split at h
    · cases h
    · split at h
      · cases h
      · rename_i hd
        injection h with h1 h2
        subst h1; subst h2
        exact .inr ⟨by simp [hm], rfl, decodeHeader_eq_row hd⟩
  · rename_i hm
    injection h with h1 h2
    exact .inr ⟨by simp [hm], h2.symm, _, _, h1.symm⟩
  · cases h

/-- An UNPACK whose header no row accepts ends with a status that forwards no error, and does nothing else. -/
theorem raiseUnaccepted_eq (e : DecodeError) (s : State) :
    ∃ st n, (st = .shortInput ∨ st = .hdrLen ∨ st = .hdrVer ∨ st = .unknownService) ∧
      raiseUnaccepted e s = s.respond (Response.bare st n none) := by
  cases e <;> exact ⟨_, _, by simp, rfl⟩

/-- A reset right after the acceptance aborts: nothing but the accepted request is gone. -/
theorem abortAccepted_next {s t : State} (h : abortAccepted s = .next t) :
    t = s.applyReset ∨ ∃ r rest, s.txn = .idle ∧ s.requests = r :: rest ∧ t = (s.accept r rest).applyReset := by
  unfold abortAccepted at h
  split at h
  · rename_i i s1 hf
    split at h
    · injection h with h
      obtain ⟨r, rest, hi, hr, -, rfl⟩ | ⟨-, rfl, -⟩ := fetch_run_cases hf
      · exact .inr ⟨r, rest, hi, hr, h.symm⟩
      · exact .inl h.symm
    · rename_i hw
      obtain ⟨r, hr⟩ := exec_of_not_wellFormed (by simpa using hw) s1
      rw [hr] at h; cases h
  · injection h with h
    exact .inl h.symm

/-- A reset before the response aborts what the exchange would have ended or left waiting. -/
theorem abortAnswering_next {s t : State} {o : Host.Outcome State Fault Refusal} (h : abortAnswering s o = .next t) :
    ∃ u, o = .next u ∧ t = { u with svcOut := s.svcOut }.applyReset := by
  cases o with
  | next u => exact ⟨u, rfl, by injection h with h; exact h.symm⟩
  | fault f => cases h
  | refused r => cases h

/-- A step in which no reset lands is its exchange. -/
theorem step_of_low {s : State} (hi : s.registry.injective = true) (hm : s.moment = .low) :
    step s = exchange s.passMoment := by
  simp [step, takeStep, hi, hm]

/-- Everything a step that answers a next state can have done: the exchange of a step in which no reset lands, or a reset
before it, right after the acceptance of its request, or before its response. -/
theorem step_cases {s t : State} (h : step s = .next t) : s.registry.injective = true ∧
    (s.moment = .low ∧ exchange s.passMoment = .next t ∨
     s.moment ≠ .low ∧ t = s.passMoment.applyReset ∨
     (s.moment = .accepted ∧ ∃ r rest, s.txn = .idle ∧ s.requests = r :: rest ∧
        t = (s.passMoment.accept r rest).applyReset) ∨
     (s.moment = .answering ∧ ∃ u, exchange s.passMoment = .next u ∧ t = { u with svcOut := s.svcOut }.applyReset)) := by
  unfold step takeStep at h
  split at h
  · cases h
  · rename_i hi
    refine ⟨by simpa using hi, ?_⟩
    split at h
    · rename_i hm
      exact .inl ⟨hm, h⟩
    · rename_i hm
      injection h with h
      exact .inr (.inl ⟨by simp [hm], h.symm⟩)
    · rename_i hm
      obtain rfl | ⟨r, rest, ht, hr, rfl⟩ := abortAccepted_next h
      · exact .inr (.inl ⟨by simp [hm], rfl⟩)
      · exact .inr (.inr (.inl ⟨hm, r, rest, ht, hr, rfl⟩))
    · rename_i hm
      exact .inr (.inr (.inr ⟨hm, abortAnswering_next h⟩))

/-- Wherever a reset lands, the step leaves an idle instance with no response and the requester's slot as it was (R103). -/
theorem step_reset_leaves_idle {s t : State} (hm : s.moment ≠ .low) (h : step s = .next t) :
    t.txn = .idle ∧ t.resp = none ∧ t.hdr = HeaderReg.empty ∧ t.cur = none ∧ t.buf = none ∧ t.inputRace = [] ∧
    t.svcOut = s.svcOut := by
  obtain ⟨-, ⟨hl, -⟩ | ⟨-, rfl⟩ | ⟨-, r, rest, -, -, rfl⟩ | ⟨-, u, -, rfl⟩⟩ := step_cases h
  · exact absurd hl hm
  all_goals simp

end Sys2Proof.Machine
end

