-- ==== Sys2Proof/Tests/Slice0.lean ====
section
/-! SUPPORT. The model's own tests: ill-formed terms refused, table words decoded, vectors of spec/95_test_vectors.md (named by
their id) and examples of 41_dispatch.md, and one witness for the hypotheses of every statement. -/

namespace Sys2Proof.Tests

open Sys2Proof.Machine Sys2Proof.Claims

/-! ### Well-formedness (10_state.md R19; 30_encoding.md R48) -/

theorem test_reserved_tag_ill_formed : (Instr.pack 11 { token := 0 }).wellFormed = false := by decide
theorem test_last_tag_well_formed : (Instr.pack 10 { token := 0 }).wellFormed = true := by decide
/-- A registry with one identifier in two entries. -/
def twiceRegistry : Registry := { defaultRegistry with connRes := defaultEntry .connReq }
theorem test_repeated_identifier_ill_formed : twiceRegistry.injective = false := by decide
theorem test_default_registry_well_formed : defaultRegistry.injective = true := by decide
theorem test_inconsistent_state_found : { State.reset with cur := some 3 }.consistent = false := by decide

/-! ### Decoding: words written out from R47 (op) and from R42 with the default table of R49 -/

theorem test_decode_hdrPack : decodeTableWord 8 0b00 = some (.hdrPack 0 0) := by decide
theorem test_decode_hdrUnpack : decodeTableWord 8 0b01 = some (.hdrUnpack []) := by decide
theorem test_decode_pack : decodeTableWord 8 0b10 = some (.pack 0 { token := 0 }) := by decide
theorem test_decode_unpack : decodeTableWord 8 0b11 = some (.unpack []) := by decide
theorem test_decode_op_too_wide : decodeTableWord 8 0b100 = none := by decide
theorem test_decode_connReq : decodeTableWord 48 0x061002050006 = some (.connReq 6) := by decide
theorem test_decode_connRes : decodeTableWord 48 0x061002060100 = some (.connRes 256) := by decide
theorem test_decode_connstateReq : decodeTableWord 48 0x061002070008 = some (.connstateReq 8) := by decide
theorem test_decode_connstateRes : decodeTableWord 48 0x061002080008 = some (.connstateRes 8) := by decide
theorem test_decode_discReq : decodeTableWord 48 0x0610020900FF = some (.discReq 255) := by decide
theorem test_decode_discRes : decodeTableWord 48 0x0610020A0000 = some (.discRes 0) := by decide
theorem test_decode_tunnelReq : decodeTableWord 48 0x061004200015 = some (.tunnelReq 21) := by decide
theorem test_decode_tunnelRes : decodeTableWord 48 0x06100421000A = some (.tunnelRes 10) := by decide
theorem test_decode_routingInd : decodeTableWord 48 0x061005300000 = some (.routingInd 0) := by decide
theorem test_decode_routingLost : decodeTableWord 48 0x061005310007 = some (.routingLost 7) := by decide
theorem test_decode_routingBusy : decodeTableWord 48 0x06100532FFFF = some (.routingBusy 0xFFFF) := by decide
/-- RL15: the byte-swapped identifier is no entry. -/
theorem test_decode_swapped_identifier :
    decode defaultRegistry (.header [0x06, 0x10, 0x05, 0x02, 0x00, 0x06]) = .error (.unknownService 0x0502) := by decide
/-- HU15: the length byte is judged before the version byte. -/
theorem test_decode_length_first : decode defaultRegistry (.header [0x07, 0x11]) = .error (.headerLength 0x07) := by decide

/-! ### One step on small states -/

/-- A state after reset with one request on the port, its input stable. -/
def asking (r : Request) : State := { State.reset with requests := [{ request := r, race := [] }] }

/-- An oracle that gives this answer once, and then answers as after reset. -/
def draws {α : Type} (a after : α) : Draws α := { coming := [a], after := after }

/-- A serializer that gives this answer first. -/
def serializes (a : SerAnswer) : Draws SerAnswer := draws a (.ok [])

/-- A parser that gives this answer first. -/
def parses (a : ParseAnswer) : Draws ParseAnswer := draws a (.ok 0 { token := 0 })

/-- The response of a step, where it answers a next state. -/
def respOf : Host.Outcome State Fault Refusal → Option Response
  | .next s => s.resp
  | .fault _ => none
  | .refused _ => none

/-- The sink after a step, where it answers a next state. -/
def sinkOf : Host.Outcome State Fault Refusal → List Byte
  | .next s => s.sink
  | .fault _ => []
  | .refused _ => []

/-- The slot after a step, where it answers a next state. -/
def svcOf : Host.Outcome State Fault Refusal → Option Service
  | .next s => some s.svcOut
  | .fault _ => none
  | .refused _ => none

/-- HP3. -/
theorem test_hdrPack_big_endian_length :
    (respOf (step (asking { Request.bare 0 with sid := 0x0530, bodyLen := 250 }))).bind Response.hdr =
      some [0x06, 0x10, 0x05, 0x30, 0x01, 0x00] := by decide
/-- HP7. -/
theorem test_hdrPack_wraps :
    (respOf (step { asking { Request.bare 0 with sid := 0x0205, bodyLen := 65535 } with lenOverflow := .wrap })).bind
      Response.hdr = some [0x06, 0x10, 0x02, 0x05, 0x00, 0x05] := by decide
/-- HU9. -/
theorem test_hdrUnpack_half_field :
    respOf (step (asking { Request.bare 1 with input := [0x06, 0x10, 0x02] })) = some (plain 5 2) := by decide
/-- HU13. -/
theorem test_hdrUnpack_any_identifier :
    respOf (step (asking { Request.bare 1 with input := [0x06, 0x10, 0x12, 0x34, 0xFF, 0xFF, 0x00] })) =
      some (okFields 0x1234 0xFFFF) := by decide

/-- P1 and P6's request, with the sink's turn left open. -/
def packing (w : SinkTurn) : State :=
  { asking { Request.bare 2 with kind := 0 } with serDraws := serializes (.ok [0xAA, 0xBB]), sinkTurns := [w] }

/-- P1. -/
theorem test_pack_accepted :
    sinkOf (step (packing .accept)) = [0x06, 0x10, 0x02, 0x05, 0x00, 0x08, 0xAA, 0xBB] ∧
    respOf (step (packing .accept)) = some (plain 0 8) := by decide
/-- P6. -/
theorem test_pack_sink_fails :
    sinkOf (step (packing (.fail 3 { token := 9 }))) = [0x06, 0x10, 0x02] ∧
    respOf (step (packing (.fail 3 { token := 9 }))) = some (forwarding 7 3 { token := 9 }) := by decide

/-- U7. -/
theorem test_unpack_delivers :
    let s := { asking { Request.bare 3 with
        input := [0x06, 0x10, 0x04, 0x21, 0x00, 0x0A, 0x01, 0x02, 0x03, 0x04, 0xFF] } with
      parseDraws := parses (.ok 4 { token := 5 }) }
    respOf (step s) = some (okInstance 10 .tunnelRes { token := 5 }) ∧
    svcOf (step s) = some { kind := .tunnelRes, inst := { token := 5 } } := by decide
/-- U8. -/
theorem test_unpack_parser_error :
    let s := { asking { Request.bare 3 with
        input := [0x06, 0x10, 0x04, 0x20, 0x00, 0x0B, 0x11, 0x22, 0x33, 0x44, 0x55] } with
      parseDraws := parses (.err 2 { token := 7 }) }
    respOf (step s) = some (forwarding 4 8 { token := 7 }) := by decide

/-- A dispatch row placed where the next step takes it from, with a parser that answers `(0, Ok(e))`. -/
def atRow (w : Nat) : State := { State.reset.withFetchWord 48 w with parseDraws := parses (.ok 0 { token := 3 }) }

/-- The example of R60; the ones below are those of R61 to R70. -/
theorem test_row_connReq : respOf (step (atRow 0x061002050006)) = some (okInstance 6 .connReq { token := 3 }) := by decide
theorem test_row_connRes : respOf (step (atRow 0x061002060006)) = some (okInstance 6 .connRes { token := 3 }) := by decide
theorem test_row_connstateReq :
    respOf (step (atRow 0x061002070006)) = some (okInstance 6 .connstateReq { token := 3 }) := by decide
theorem test_row_connstateRes :
    respOf (step (atRow 0x061002080006)) = some (okInstance 6 .connstateRes { token := 3 }) := by decide
theorem test_row_discReq : respOf (step (atRow 0x061002090006)) = some (okInstance 6 .discReq { token := 3 }) := by decide
theorem test_row_discRes : respOf (step (atRow 0x0610020A0006)) = some (okInstance 6 .discRes { token := 3 }) := by decide
theorem test_row_tunnelReq : respOf (step (atRow 0x061004200006)) = some (okInstance 6 .tunnelReq { token := 3 }) := by decide
theorem test_row_tunnelRes : respOf (step (atRow 0x061004210006)) = some (okInstance 6 .tunnelRes { token := 3 }) := by decide
theorem test_row_routingInd : respOf (step (atRow 0x061005300006)) = some (okInstance 6 .routingInd { token := 3 }) := by decide
theorem test_row_routingLost :
    respOf (step (atRow 0x061005310006)) = some (okInstance 6 .routingLost { token := 3 }) := by decide
theorem test_row_routingBusy :
    respOf (step (atRow 0x061005320006)) = some (okInstance 6 .routingBusy { token := 3 }) := by decide
/-- A row placed after reset is what the next step runs. -/
theorem test_row_runs_first : step (State.reset.withFetchWord 48 0x061002050000) =
    exec (.connReq 0) (State.reset.withFetchWord 48 0x061002050000) := rfl
/-- R105: the second of two requests reads a byte its requester has changed; the first has a stable input. -/
theorem test_race_of_second_request :
    let stable : Issue := { request := { Request.bare 1 with input := [0x06, 0x10] }, race := [] }
    let raced : Issue := { request := { Request.bare 1 with input := [0x06, 0x10] }, race := [none, some 0x11] }
    respOf (runSteps 1 { State.reset with requests := [stable, raced] }) = some (plain 5 2) ∧
    respOf (runSteps 2 { State.reset with requests := [stable, raced] }) = some (plain 2 2) := by decide
/-- R103: a reset while PACK stands at the sink leaves the bytes taken and no response. -/
theorem test_reset_leaves_prefix :
    let s := { packing (.taking 2) with sinkTurns := [.taking 2, .resetHits] }
    sinkOf (runSteps 2 s) = [0x06, 0x10] ∧ respOf (runSteps 2 s) = none := by decide

/-- R103: a reset right after an UNPACK is accepted, or before its response, gives no response and leaves the slot; the request
behind it is then served. -/
theorem test_reset_aborts_accepted_unpack :
    let s (m : ResetMoment) : State := { State.reset with
      requests := [{ request := { Request.bare 3 with input := [0x06, 0x10, 0x02, 0x05, 0x00, 0x06] }, race := [] },
        { request := Request.bare 1, race := [] }]
      parseDraws := parses (.ok 0 { token := 7 }), resetLine := [m] }
    (∀ m ∈ [ResetMoment.accepted, .answering], respOf (runSteps 1 (s m)) = none ∧
      svcOf (runSteps 1 (s m)) = some State.reset.svcOut ∧ respOf (runSteps 2 (s m)) = some (plain 5 0)) ∧
    respOf (runSteps 2 (s .before)) = some (okInstance 6 .connReq { token := 7 }) := by decide
/-- R103: a reset before the response of a PACK leaves the bytes the sink took. -/
theorem test_reset_aborts_pack :
    let s := { packing (.fail 3 { token := 9 }) with resetLine := [.answering] }
    sinkOf (step s) = [0x06, 0x10, 0x02] ∧ respOf (step s) = none := by decide
/-- R50: header words that are no row, placed at the mux; U2, U3 and U5 have these answers. -/
theorem test_header_of_no_row :
    respOf (step (State.reset.withFetchWord 48 0x051002050006)) = some (plain 1 1) ∧
    respOf (step (State.reset.withFetchWord 48 0x061102050006)) = some (plain 2 2) ∧
    respOf (step (State.reset.withFetchWord 48 0x061005020006)) = some (plain 3 6) := by decide

/-! ### Witnesses: for every statement, a state and operands that meet its hypotheses, at a boundary for each clause -/

/-- UNPACK of a TUNNEL_REQ packet with two body bytes at the mux, its parser's answer left open. -/
def unpackingAtMux (d : ParseAnswer) : State :=
  { State.reset with
      txn := .unpackAtMux [0x06, 0x10, 0x04, 0x20, 0x00, 0x08, 0x01, 0x02]
      hdr := heldHeader 0x0420 0x0008
      cur := some 6
      parseDraws := parses d }

/-- PACK of a CONN_REQ payload at the mux. -/
def packingAtMux (d : SerAnswer) (ws : List SinkTurn) : State :=
  { State.reset with txn := .packAtMux .connReq { token := 1 }, serDraws := serializes d, sinkTurns := ws }

/-- PACK of a one-byte CONN_REQ body that waits on the sink, `acc` of its 7 bytes taken. -/
def waiting (acc : Nat) (ws : List SinkTurn) : State :=
  { State.reset with
      txn := .sinkWait acc
      hdr := heldHeader 0x0205 0x0007
      buf := some [0xAA]
      sinkTurns := ws }

/-- The packet of `waiting`. -/
def waitingPacket : List Byte := [0x06, 0x10, 0x02, 0x05, 0x00, 0x07, 0xAA]

theorem running_reset (n : Nat) : running n State.reset := ⟨by decide, fun _ h => by simp [State.reset] at h⟩

theorem waits_at (acc : Nat) (ws : List SinkTurn) (h : acc ≤ 7) :
    running 1 (waiting acc ws) ∧ waitingOnSink (waiting acc ws) waitingPacket acc := ⟨running_reset 1, rfl, rfl, h⟩

/-- UNPACK of a TUNNEL_REQ packet with one body byte on the port. -/
def unpackAsked (d : ParseAnswer) : State :=
  { asking { Request.bare 3 with input := [0x06, 0x10, 0x04, 0x20, 0x00, 0x07, 0x01] } with parseDraws := parses d }

/-- Its input is read as it stands, and its identifier is TUNNEL_REQ's entry. -/
def readsTunnelReq (s : State) : Prop :=
  seenInput s.inputRace [0x06, 0x10, 0x04, 0x20, 0x00, 0x07, 0x01] = 0x06 :: 0x10 :: 0x04 :: 0x20 :: 0x00 :: 0x07 :: [0x01] ∧
  (0x04#8 ++ 0x20#8) = s.registry.serviceId .tunnelReq

theorem reads_unpackAsked (d : ParseAnswer) : readsTunnelReq (unpackAsked d) := by
  constructor <;> rfl

/-- A state whose next step a reset lands in. -/
def resetIn (m : ResetMoment) (s : State) : State := { s with resetLine := [m] }

/-- An idle well-formed instance whose port asks for this instruction. -/
def asksFor (s : State) (i : Instr) : Prop :=
  s.registry.injective = true ∧ s.txn = .idle ∧ ∃ r, s.requests = r :: [] ∧ decode s.registry (.request r.request) = .ok i

theorem asks_unpack (m : ResetMoment) (d : ParseAnswer) :
    asksFor (resetIn m (unpackAsked d)) (.unpack [0x06, 0x10, 0x04, 0x20, 0x00, 0x07, 0x01]) :=
  ⟨(running_reset 1).1, rfl, _, rfl, rfl⟩

theorem witness_DecodeInvertsEncode :
    defaultRegistry.injective = true ∧ (Instr.pack 10 { token := 0 }).wellFormed = true := by decide
theorem witness_EncodeInvertsHeaderDecode :
    [0x06, 0x10, 0x05, 0x32, 0x00, 0x06].length = 6 ∧
    decode defaultRegistry (.header [0x06, 0x10, 0x05, 0x32, 0x00, 0x06]) = .ok (.routingBusy 6) := by decide
theorem witness_HeaderAcceptedByMatchAndMask : defaultRegistry.injective = true := by decide
theorem witness_LookupFindsUniqueEntry : defaultRegistry.injective = true ∧ regLookup defaultRegistry 0x020A = some .discRes ∧
    regLookup defaultRegistry 0x020B = none := by decide
theorem witness_FieldsAreBigEndian :
    ([0x06, 0x10, 0x02, 0x05] : List Byte)[2]? = some 0x02 ∧ ([0x06, 0x10, 0x02, 0x05] : List Byte)[2 + 1]? = some 0x05 := by
  decide
theorem witness_StepRunsPortRequest :
    running 1 (asking (Request.bare 3)) ∧ (asking (Request.bare 3)).txn = .idle ∧
    (asking (Request.bare 3)).requests = [{ request := Request.bare 3, race := [] }] ∧
    decode defaultRegistry (.request (Request.bare 3)) = .ok (.unpack []) ∧ (Instr.unpack []).wellFormed = true :=
  ⟨running_reset 1, rfl, rfl, rfl, rfl⟩
theorem witness_StepRunsSelectedRow :
    (running 1 (unpackingAtMux (.ok 0 { token := 3 })) ∧
      (unpackingAtMux (.ok 0 { token := 3 })).txn = .unpackAtMux [0x06, 0x10, 0x04, 0x20, 0x00, 0x08, 0x01, 0x02] ∧
      (unpackingAtMux (.ok 0 { token := 3 })).hdr = heldHeader 0x0420 0x0008 ∧
      decode (unpackingAtMux (.ok 0 { token := 3 })).registry (.header [0x06, 0x10, 0x04, 0x20, 0x00, 0x08]) = .ok (.tunnelReq 8) ∧
      (Instr.tunnelReq 8).wellFormed = true) ∧
    (running 1 (packingAtMux (.ok []) []) ∧ (Instr.connReq, Kind.connReq) ∈ rows ∧
      (packingAtMux (.ok []) []).txn = .packAtMux .connReq { token := 1 }) :=
  ⟨⟨running_reset 1, rfl, rfl, by decide, rfl⟩, running_reset 1, by simp [rows], rfl⟩
theorem witness_RefusalsAndTheirMark :
    11 ≤ (11 : BitVec 4).toNat ∧ (Kind.connReq ≠ .connRes ∧ twiceRegistry.serviceId .connReq = twiceRegistry.serviceId .connRes) ∧
    step { State.reset with registry := twiceRegistry } = .refused .registryNotInjective := ⟨by decide, by decide, rfl⟩
theorem witness_IdleInstanceWaits :
    (∀ n, running n State.reset) ∧ State.reset.txn = .idle ∧ State.reset.requests = [] := ⟨running_reset, rfl, rfl⟩
theorem witness_ResetAbortsTransaction :
    ({ waiting 3 [] with resetLine := [.before] }.registry.injective = true ∧
      { waiting 3 [] with resetLine := [.before] }.resetLine = .before :: []) ∧
    ({ waiting 3 [] with resetLine := [.accepted] }.registry.injective = true ∧
      { waiting 3 [] with resetLine := [.accepted] }.txn ≠ .idle) ∧
    (resetIn .accepted (unpackAsked (.ok 1 { token := 3 }))).resetLine = .accepted :: [] ∧
    asksFor (resetIn .accepted (unpackAsked (.ok 1 { token := 3 }))) (.unpack [0x06, 0x10, 0x04, 0x20, 0x00, 0x07, 0x01]) ∧
    (running 1 (waiting 3 [.resetHits]) ∧ waitingOnSink (waiting 3 [.resetHits]) waitingPacket 3) ∧
    ((packing .resetHits).serDraws.head = .ok [0xAA, 0xBB] ∧ lengthTaken (packing .resetHits) 2 ∧
      (packing .resetHits).sinkTurns = .resetHits :: []) :=
  ⟨by decide, by decide, rfl, asks_unpack _ _, waits_at 3 _ (by decide), rfl, .inl (by decide), rfl⟩
theorem witness_ResetBeforeResponseAborts :
    asksFor (resetIn .answering (asking (Request.bare 0))) (.hdrPack 0 0) ∧
    asksFor (resetIn .answering (asking (Request.bare 1))) (.hdrUnpack []) ∧
    (asksFor (resetIn .answering (unpackAsked (.ok 1 { token := 3 }))) (.unpack [0x06, 0x10, 0x04, 0x20, 0x00, 0x07, 0x01]) ∧
      readsTunnelReq (unpackAsked (.ok 1 { token := 3 })) ∧ 1 ≤ [(0x01 : Byte)].length ∧
      (unpackAsked (.ok 1 { token := 3 })).parseDraws.head = .ok 1 { token := 3 }) ∧
    (asksFor (resetIn .answering (asking (Request.bare 3))) (.unpack []) ∧ seenInput [] [] = []) ∧
    (∀ w, asksFor (resetIn .answering (packing w)) (.pack Kind.connReq.tag { token := 0 }) ∧
      (packing w).serDraws.head = .ok [0xAA, 0xBB] ∧ lengthTaken (packing w) 2 ∧ (packing w).sinkTurns = w :: []) ∧ 8 ≤ 6 + 2 :=
  ⟨⟨by decide, rfl, _, rfl, rfl⟩, ⟨by decide, rfl, _, rfl, rfl⟩, ⟨asks_unpack _ _, reads_unpackAsked _, by decide, rfl⟩,
    ⟨⟨by decide, rfl, _, rfl, rfl⟩, rfl⟩, fun _ => ⟨⟨(running_reset 1).1, rfl, _, rfl, rfl⟩, rfl, .inl (by decide), rfl⟩, by decide⟩
theorem witness_ResetLeavesNoResponse :
    (∃ t, step (resetIn .answering (unpackAsked (.ok 1 { token := 3 }))) = .next t ∧ t.parseDraws.coming = []) ∧
    (∃ t, step (resetIn .before (waiting 7 [])) = .next t) ∧
    (waitingOnSink (resetIn .answering (waiting 3 [.taking 4])) waitingPacket 3 ∧
      ∃ t, step (resetIn .answering (waiting 3 [.taking 4])) = .next t ∧ t.sink = [0x05, 0x00, 0x07, 0xAA]) :=
  ⟨⟨_, rfl, rfl⟩, ⟨_, rfl⟩, (waits_at 3 [] (by decide)).2, _, rfl, by decide⟩
theorem witness_UnacceptedHeaderEndsUnpack :
    let s := { unpackingAtMux (.ok 0 { token := 3 }) with hdr := heldHeader 0x0502 0x0008 }
    running 1 s ∧ s.txn = .unpackAtMux [0x06, 0x10, 0x04, 0x20, 0x00, 0x08, 0x01, 0x02] ∧
    s.hdr = { hdrLen := some 0x06, version := some 0x10, service := some 0x0502, totalLen := some 0x0008 } ∧
    (∀ k, s.registry.serviceId k ≠ 0x0502) ∧ (0x16 : Byte) ≠ 0x06 ∧ (0x11 : Byte) ≠ 0x10 :=
  ⟨running_reset 1, rfl, rfl, fun k => by cases k <;> decide, by decide⟩
theorem witness_HdrPackBuildsHeader :
    lengthTaken State.reset 65529 ∧ lengthTaken { State.reset with lenOverflow := .wrap } 65530 ∧
    (65529 < 65530 ∧ State.reset.lenOverflow = .refuse) := ⟨.inl (by decide), .inr rfl, by decide, rfl⟩
theorem witness_HdrUnpackInvertsHdrPack : 65529 ≤ 65529 ∧ State.reset.inputRace = [] := ⟨Nat.le_refl _, rfl⟩
theorem witness_ConstantsComparedWhole :
    seenInput State.reset.inputRace [0x16, 0x10] = 0x16 :: [0x10] ∧ seenInput State.reset.inputRace [0x06, 0x10] = 0x06 :: [0x10] := by
  decide
theorem witness_WrongLengthByteGivesHdrLen :
    seenInput [some 0x05] [0x06] = 0x05 :: [] ∧ (0x05 : Byte) ≠ 0x06 := by decide
theorem witness_WrongVersionByteGivesHdrVer :
    seenInput State.reset.inputRace [0x06, 0x11] = 0x06 :: 0x11 :: [] ∧ (0x11 : Byte) ≠ 0x10 := by decide
theorem witness_ShortInputReportsCompleteFields :
    seenInput State.reset.inputRace [] = [] ∧ seenInput State.reset.inputRace [0x06] = [0x06] ∧
    (seenInput State.reset.inputRace [0x06, 0x10, 0x02] = 0x06 :: 0x10 :: [0x02] ∧ [0x02].length ≤ 1) ∧
    (seenInput State.reset.inputRace [0x06, 0x10, 0x02, 0x05, 0x00] = 0x06 :: 0x10 :: [0x02, 0x05, 0x00] ∧
      [0x02, 0x05, 0x00].length = 3) := by decide
theorem witness_UnknownServiceReportsSix :
    seenInput State.reset.inputRace [0x06, 0x10, 0x05, 0x02, 0x00, 0x06] = 0x06 :: 0x10 :: 0x05 :: 0x02 :: 0x00 :: 0x06 :: [] ∧
    ∀ k, State.reset.registry.serviceId k ≠ (0x05#8 ++ 0x02#8) := ⟨by decide, fun k => by cases k <;> decide⟩

theorem witness_UnpackDeliversInstance :
    readsTunnelReq (unpackAsked (.ok 1 { token := 3 })) ∧
    (unpackAsked (.ok 1 { token := 3 })).registry.injective = true ∧
    (unpackAsked (.ok 1 { token := 3 })).parseDraws.head = .ok 1 { token := 3 } ∧ 1 ≤ [(0x01 : Byte)].length :=
  ⟨reads_unpackAsked _, by decide⟩
theorem witness_UnpackForwardsParserError :
    readsTunnelReq (unpackAsked (.err 1 { token := 3 })) ∧
    (unpackAsked (.err 1 { token := 3 })).registry.injective = true ∧
    (unpackAsked (.err 1 { token := 3 })).parseDraws.head = .err 1 { token := 3 } ∧ 1 ≤ [(0x01 : Byte)].length :=
  ⟨reads_unpackAsked _, by decide⟩

theorem witness_SvcOutWrittenOnlyOnOk :
    exec (.unpack []) State.reset = .next (ended State.reset (plain 5 0)) ∧
    ∃ t, exec (.unpack [0x06, 0x10, 0x04, 0x20, 0x00, 0x07, 0x01]) (unpackAsked (.ok 1 { token := 3 })) = .next t ∧
      t.resp = some (okInstance 7 .tunnelReq { token := 3 }) := ⟨rfl, _, rfl, by decide⟩
theorem witness_SvcOutChangesOnlyByOkUnpack : step State.reset = .next State.reset := rfl
theorem witness_TotalLengthIgnored : (unpackAsked (.ok 1 { token := 3 })).inputRace = [] := rfl
theorem witness_RowRoutesBodyToParser :
    ((Instr.tunnelReq, Kind.tunnelReq) ∈ rows) ∧
    (∀ d, (unpackingAtMux d).txn = .unpackAtMux [0x06, 0x10, 0x04, 0x20, 0x00, 0x08, 0x01, 0x02] ∧
      (unpackingAtMux d).hdr = heldHeader ((unpackingAtMux d).registry.serviceId .tunnelReq) 0x0008) ∧
    2 ≤ [0x06, 0x10, 0x04, 0x20, 0x00, 0x08, 0x01, 0x02].length - 6 ∧
    (unpackingAtMux (.ok 2 { token := 3 })).parseDraws.head = .ok 2 { token := 3 } ∧
    (unpackingAtMux (.err 2 { token := 3 })).parseDraws.head = .err 2 { token := 3 } :=
  ⟨by simp [rows], fun _ => ⟨rfl, rfl⟩, by decide, rfl, rfl⟩
theorem witness_RowPacksPayload :
    ((Instr.connReq, Kind.connReq) ∈ rows) ∧ (∀ d ws, (packingAtMux d ws).txn = .packAtMux .connReq { token := 1 }) ∧
    (packingAtMux (.err { token := 4 }) []).serDraws.head = .err { token := 4 } ∧
    ((packingAtMux (.ok (List.replicate 65530 0)) []).serDraws.head = .ok (List.replicate 65530 0) ∧
      65529 < (List.replicate 65530 (0 : Byte)).length ∧ (packingAtMux (.ok (List.replicate 65530 0)) []).lenOverflow = .refuse) ∧
    (∀ ws, (packingAtMux (.ok []) ws).serDraws.head = .ok [] ∧ lengthTaken (packingAtMux (.ok []) ws) 0) ∧
    (packingAtMux (.ok []) []).sinkTurns = [] ∧ (packingAtMux (.ok []) [.accept]).sinkTurns = .accept :: [] ∧
    ((packingAtMux (.ok []) [.fail 6 { token := 9 }]).sinkTurns = .fail 6 { token := 9 } :: [] ∧ 6 ≤ 6 + 0) :=
  ⟨by simp [rows], fun _ _ => rfl, rfl, ⟨rfl, by rw [List.length_replicate]; decide, rfl⟩, fun _ => ⟨rfl, .inl (by decide)⟩,
    rfl, rfl, rfl, by decide⟩
theorem witness_RowWaitsOnSinkAlone :
    ((Instr.tunnelReq, Kind.tunnelReq) ∈ rows ∧ (∃ t, exec (.tunnelReq 0) (unpackingAtMux (.ok 0 { token := 3 })) = .next t) ∧
      (unpackingAtMux (.ok 0 { token := 3 })).txn = .unpackAtMux [0x06, 0x10, 0x04, 0x20, 0x00, 0x08, 0x01, 0x02]) ∧
    ((Instr.connReq, Kind.connReq) ∈ rows ∧ (∃ t, exec (.connReq 0) (packingAtMux (.ok []) []) = .next t) ∧
      (packingAtMux (.ok []) []).txn = .packAtMux .connReq { token := 1 }) :=
  ⟨⟨by simp [rows], ⟨_, rfl⟩, rfl⟩, by simp [rows], ⟨_, rfl⟩, rfl⟩
theorem witness_UnselectedRowRefused :
    (Instr.tunnelRes, Kind.tunnelRes) ∈ rows ∧
    State.reset.txn = .idle ∧ (waiting 7 []).txn = .sinkWait 7 ∧
    ((unpackingAtMux (.ok 0 { token := 3 })).txn = .unpackAtMux [0x06, 0x10, 0x04, 0x20, 0x00, 0x08, 0x01, 0x02] ∧
      (unpackingAtMux (.ok 0 { token := 3 })).hdr = heldHeader 0x0420 0x0008 ∧
      (0x0420 : Half) ≠ (unpackingAtMux (.ok 0 { token := 3 })).registry.serviceId .tunnelRes) ∧
    ((packingAtMux (.ok []) []).txn = .packAtMux .connReq { token := 1 } ∧ Kind.connReq ≠ .tunnelRes) :=
  ⟨by simp [rows], rfl, rfl, ⟨rfl, rfl, by decide⟩, rfl, by decide⟩
theorem witness_PackEmitsPacket :
    (∀ w, (packing w).serDraws.head = .ok [0xAA, 0xBB] ∧ lengthTaken (packing w) 2) ∧
    (packing .accept).sinkTurns = .accept :: [] ∧ (packing (.wrote 8)).sinkTurns = .wrote (6 + 2) :: [] :=
  ⟨fun _ => ⟨rfl, .inl (by decide)⟩, rfl, rfl⟩
theorem witness_SerializerErrorForwarded :
    (packingAtMux (.err { token := 4 }) []).serDraws.head = .err { token := 4 } := rfl
theorem witness_LongBodyGivesLenOverflow :
    (65529 < 65530 ∧ State.reset.lenOverflow = .refuse) ∧
    ((packingAtMux (.ok (List.replicate 65530 0)) []).serDraws.head = .ok (List.replicate 65530 0) ∧
      65529 < (List.replicate 65530 (0 : Byte)).length) ∧
    exec (.hdrPack 0 65530) { State.reset with lenOverflow := .wrap } = .next
      (ended { State.reset with lenOverflow := .wrap } { plain 0 6 with hdr := some (headerOf 0 65530) }) :=
  ⟨⟨by decide, rfl⟩, ⟨rfl, by rw [List.length_replicate]; decide⟩, rfl⟩
theorem witness_SinkFailureForwarded :
    (packing (.fail 8 { token := 9 })).serDraws.head = .ok [0xAA, 0xBB] ∧ lengthTaken (packing (.fail 8 { token := 9 })) 2 ∧
    (packing (.fail 8 { token := 9 })).sinkTurns = .fail 8 { token := 9 } :: [] ∧ 8 ≤ 6 + 2 :=
  ⟨rfl, .inl (by decide), rfl, by decide⟩
theorem witness_NoSinkByteBeforePacket :
    (∃ t, exec (.pack 0 { token := 0 }) (packing .accept) = .next t ∧ t.sink ≠ (packing .accept).sink) ∧
    (∃ t, (Instr.connReq, Kind.connReq) ∈ rows ∧
      (packingAtMux (.ok []) [.accept]).txn = .packAtMux .connReq { token := 1 } ∧
      exec (.connReq 0) (packingAtMux (.ok []) [.accept]) = .next t ∧ t.sink ≠ (packingAtMux (.ok []) [.accept]).sink) :=
  ⟨⟨_, rfl, by decide⟩, _, by simp [rows], rfl, rfl, by decide⟩
theorem witness_PackCountsSinkBytes :
    (∃ t, exec (.pack Kind.connReq.tag { token := 0 }) (packing .accept) = .next t ∧ t.txn = .idle ∧
      t.resp = some (plain 0 8)) ∧
    (∃ t, (Instr.connReq, Kind.connReq) ∈ rows ∧
      (packingAtMux (.ok []) [.accept]).txn = .packAtMux .connReq { token := 1 } ∧
      exec (.connReq 0) (packingAtMux (.ok []) [.accept]) = .next t ∧ t.txn = .idle ∧ t.resp = some (plain 0 6)) :=
  ⟨⟨_, rfl, rfl, by decide⟩, _, by simp [rows], rfl, rfl, rfl, by decide⟩
theorem witness_PackWaitsOnSinkAlone :
    (∃ t, exec (.pack Kind.connReq.tag { token := 0 }) (packing .accept) = .next t ∧ t.txn = .idle) ∧
    ∃ t, exec (.pack Kind.connReq.tag { token := 0 }) (packing (.taking 8)) = .next t ∧ t.txn = .sinkWait 8 :=
  ⟨⟨_, rfl, rfl⟩, _, rfl, rfl⟩
theorem witness_UnansweringSinkLeavesPackStuck :
    ((packingAtMux (.ok []) []).serDraws.head = .ok [] ∧ lengthTaken (packingAtMux (.ok []) []) 0 ∧
      (packingAtMux (.ok []) []).sinkTurns = []) ∧
    ((∀ n, running n (waiting 7 [])) ∧ waitingOnSink (waiting 7 []) waitingPacket 7 ∧ (waiting 7 []).sinkTurns = []) :=
  ⟨⟨rfl, .inl (by decide), rfl⟩, running_reset, (waits_at 7 [] (by decide)).2, rfl⟩
theorem witness_WaitingPackTakesSinkTurn :
    (∀ ws, running 1 (waiting 3 ws) ∧ waitingOnSink (waiting 3 ws) waitingPacket 3) ∧
    ((waiting 3 [.taking 4]).sinkTurns = .taking 4 :: [] ∧ 3 + 4 ≤ waitingPacket.length) ∧
    (waiting 3 [.foreign [0xEE]]).sinkTurns = .foreign [0xEE] :: [] ∧
    ((waiting 3 [.accept]).sinkTurns = .accept :: [] ∧ (waiting 3 [.wrote 7]).sinkTurns = .wrote waitingPacket.length :: []) ∧
    ((waiting 3 [.fail 3 { token := 9 }]).sinkTurns = .fail 3 { token := 9 } :: [] ∧ 3 ≤ 3 ∧ 3 ≤ waitingPacket.length) :=
  ⟨fun ws => waits_at 3 ws (by decide), by decide, rfl, ⟨rfl, rfl⟩, by decide⟩
theorem witness_SinkSplitDoesNotMatter :
    let s := { asking { Request.bare 2 with kind := Kind.connReq.tag } with
                 serDraws := serializes (.ok [0xAA]), sinkTurns := [.taking 0, .taking 7, .accept] }
    running 3 s ∧ s.txn = .idle ∧ s.requests = { request := { Request.bare 2 with kind := Kind.connReq.tag }, race := [] } :: [] ∧
    (Request.bare 2).op = 2 ∧ s.serDraws.head = .ok [0xAA] ∧ lengthTaken s 1 ∧
    s.sinkTurns = [0, 7].map .taking ++ .accept :: [] ∧ [0, 7].sum ≤ 6 + [(0xAA : Byte)].length :=
  ⟨running_reset 3, rfl, rfl, rfl, rfl, .inl (by decide), rfl, by decide⟩
theorem witness_OperationRunsItsRow :
    (running 1 (unpackAsked (.ok 1 { token := 3 })) ∧ (Instr.tunnelReq, Kind.tunnelReq) ∈ rows ∧
      readsTunnelReq (unpackAsked (.ok 1 { token := 3 }))) ∧
    (running 1 (packing .accept) ∧ (Instr.connReq, Kind.connReq) ∈ rows) :=
  ⟨⟨running_reset 1, by simp [rows], reads_unpackAsked _⟩, running_reset 1, by simp [rows]⟩
theorem witness_UnpackInvertsPack :
    (packing .accept).registry.injective = true ∧ (packing .accept).serDraws.head = .ok [0xAA, 0xBB] ∧
    [(0xAA : Byte), 0xBB].length ≤ 65529 ∧ (packing .accept).sinkTurns = .accept :: [] ∧
    (unpackAsked (.ok 2 { token := 3 })).registry = (packing .accept).registry ∧
    (unpackAsked (.ok 2 { token := 3 })).inputRace = [] ∧
    (unpackAsked (.ok 2 { token := 3 })).parseDraws.head = .ok [(0xAA : Byte), 0xBB].length { token := 3 } := by decide
theorem witness_SinkOnlyGrows : step (waiting 3 [.taking 4]) =
    .next { waiting 7 [] with sink := [0x05, 0x00, 0x07, 0xAA] } := rfl
theorem witness_ParametersNeverWritten :
    exec (.hdrUnpack []) State.reset = .next (ended State.reset (plain 5 0)) ∧ step State.reset = .next State.reset := ⟨rfl, rfl⟩
theorem witness_NewResponsesHaveDefinedFields :
    (∃ t, step (asking (Request.bare 1)) = .next t ∧ t.resp = some (plain 5 0) ∧ t.resp ≠ (asking (Request.bare 1)).resp) ∧
    (∃ t, exec (.hdrPack 0 0) State.reset = .next t ∧ t.resp = some { plain 0 6 with hdr := some (headerOf 0 0) }) ∧
    (∃ t, exec (.hdrUnpack [0x06, 0x10, 0x12, 0x34, 0x00, 0x00]) State.reset = .next t ∧ t.resp = some (okFields 0x1234 0)) ∧
    (∃ t, exec (.pack 0 { token := 0 }) (packing .accept) = .next t ∧ t.resp = some (plain 0 8)) ∧
    (∃ t, exec (.unpack [0x06, 0x10, 0x04, 0x20, 0x00, 0x07, 0x01]) (unpackAsked (.ok 1 { token := 3 })) = .next t ∧
      t.resp = some (okInstance 7 .tunnelReq { token := 3 })) ∧
    (∃ t, exec (.tunnelReq 0) (unpackingAtMux (.ok 2 { token := 3 })) = .next t ∧ t.txn = .idle ∧
      t.resp = some (okInstance 8 .tunnelReq { token := 3 })) ∧
    (∃ t, exec (.connReq 0) (packingAtMux (.ok []) [.accept]) = .next t ∧ t.txn = .idle ∧ t.resp = some (plain 0 6)) ∧
    (∃ t, running 1 (waiting 7 [.accept]) ∧ step (waiting 7 [.accept]) = .next t ∧ t.txn = .idle ∧ t.resp = some (plain 0 7)) :=
  ⟨⟨_, rfl, rfl, by decide⟩, ⟨_, rfl, rfl⟩, ⟨_, rfl, rfl⟩, ⟨_, rfl, by decide⟩, ⟨_, rfl, by decide⟩, ⟨_, rfl, rfl, by decide⟩,
    ⟨_, rfl, rfl, by decide⟩, _, running_reset 1, rfl, rfl, by decide⟩
theorem witness_ResponseExactlyWhenEnded :
    (running 1 (asking (Request.bare 1)) ∧ (asking (Request.bare 1)).txn = .idle ∧ (asking (Request.bare 1)).requests ≠ [] ∧
      ∃ t, step (asking (Request.bare 1)) = .next t) ∧
    (running 1 (waiting 7 [.resetHits]) ∧ (waiting 7 [.resetHits]).txn ≠ .idle ∧ (waiting 7 [.resetHits]).consistent = true ∧
      ∃ t, step (waiting 7 [.resetHits]) = .next t) :=
  ⟨⟨running_reset 1, rfl, by decide, _, rfl⟩, running_reset 1, by decide, by decide, _, rfl⟩
theorem witness_NothingSurvivesTransaction :
    let s := packing .accept
    let u := { packing .accept with cur := some 3, buf := some [0x02], sink := [0x01] }
    u.registry = s.registry ∧ u.lenOverflow = s.lenOverflow ∧ u.serDraws = s.serDraws ∧ u.parseDraws = s.parseDraws ∧
    u.sinkTurns = s.sinkTurns ∧ u.inputRace = s.inputRace ∧
    ∃ t, exec (decodeRequest { Request.bare 2 with kind := 0 }) s = .next t ∧ t.resp = some (plain 0 8) :=
  ⟨rfl, rfl, rfl, rfl, rfl, rfl, _, rfl, by decide⟩
theorem witness_ReadsReturnOldOrNewByte :
    (seenInput [none, some 0x07] [0x01, 0x02])[1]? = some 0x07 ∧ 1 < [(0x01 : Byte), 0x02].length ∧
    ([none, some 0x07] : List (Option Byte))[1]? = some (some 0x07) := by decide
theorem witness_StepKeepsConsistency :
    (waiting 7 [.accept]).consistent = true ∧ (unpackingAtMux (.ok 0 { token := 3 })).consistent = true ∧ (packingAtMux (.ok []) []).consistent = true ∧
    ∃ t, step (waiting 7 [.accept]) = .next t := ⟨by decide, by decide, by decide, _, rfl⟩
theorem witness_ConsistentRunsNeverFault : (waiting 0 [.foreign [0x01], .accept]).consistent = true := by decide
theorem witness_AbsentResponseFieldsFault :
    State.reset.resp = none ∧ { State.reset with resp := some (plain 15 0) }.resp = some (plain 15 0) ∧
    (plain 8 0).status.toNat ≤ 8 ∧ (plain 9 0).status.toNat = 9 := by decide
theorem witness_AnswersOutsideOracleRefused :
    ((Instr.tunnelReq, Kind.tunnelReq) ∈ rows ∧ [0x06, 0x10, 0x04, 0x20, 0x00, 0x08, 0x01, 0x02].length - 6 < 3 ∧
      (unpackingAtMux (.ok 3 { token := 3 })).parseDraws.head = .ok 3 { token := 3 } ∧
      (unpackingAtMux (.ok 3 { token := 3 })).txn = .unpackAtMux [0x06, 0x10, 0x04, 0x20, 0x00, 0x08, 0x01, 0x02] ∧
      (unpackingAtMux (.ok 3 { token := 3 })).hdr = heldHeader (defaultRegistry.serviceId .tunnelReq) 0x0008) ∧
    (readsTunnelReq (unpackAsked (.err 2 { token := 3 })) ∧ [0x06, 0x10, 0x04, 0x20, 0x00, 0x07, 0x01].length - 6 < 2 ∧
      (unpackAsked (.err 2 { token := 3 })).parseDraws.head = .err 2 { token := 3 }) ∧
    (∀ ws, running 1 (waiting 3 ws) ∧ waitingOnSink (waiting 3 ws) waitingPacket 3) ∧
    (∀ w, (packing w).serDraws.head = .ok [0xAA, 0xBB] ∧ lengthTaken (packing w) 2) ∧
    (∀ ws, (Instr.connReq, Kind.connReq) ∈ rows ∧ (packingAtMux (.ok []) ws).txn = .packAtMux .connReq { token := 1 }) ∧
    waitingPacket.length < 8 ∧ 2 < 3 ∧ waitingPacket.length < 3 + 5 ∧ (3 ≤ 6 ∧ 6 < waitingPacket.length) :=
  ⟨⟨by simp [rows], by decide, rfl, rfl, by decide⟩, ⟨reads_unpackAsked _, by decide, rfl⟩, fun ws => waits_at 3 ws (by decide),
    fun _ => ⟨rfl, .inl (by decide)⟩, fun _ => ⟨by simp [rows], rfl⟩, by decide⟩
end Sys2Proof.Tests
end

