-- ==== Sys2Proof/Proofs/Scope.lean ====
section
/-! The next states of each operation, in terms of the shared operations, and the parameters every next state keeps. -/

namespace Sys2Proof.Machine

/-! ### Next states of the operations and of an exchange -/

/-- An error raised at the cursor is a response and nothing else. -/
theorem raiseAtCursor_next {st : Status} {s t : State} (h : raiseAtCursor st s = .next t) :
    ∃ n, s.cur = some n ∧ t = s.respond (Response.bare st n none) := by
  unfold raiseAtCursor at h
  split at h
  · cases h
  · rename_i n hn
    injection h with h
    exact ⟨n, hn, h.symm⟩

/-- Every next state of HDR_PACK is a response and nothing else: the built header is gone with the transaction (R13). -/
theorem execHdrPack_next {sid : Half} {bodyLen : Nat} {s t : State} (h : execHdrPack sid bodyLen s = .next t) :
    ∃ r, t = s.begin.respond r := by
  unfold execHdrPack at h
  rw [buildHeader_eq] at h
  split at h
  · injection h with h
    exact ⟨_, h.symm⟩
  · rename_i s1 hs1
    split at h
    · cases h
    · split at hs1
      · cases hs1
      · injection hs1 with hs1; subst hs1
        injection h with h
        exact ⟨_, h.symm⟩

/-- Every next state of HDR_UNPACK is a response and nothing else: what it read is gone with the transaction (R13). -/
theorem execHdrUnpack_next {input : List Byte} {s t : State} (h : execHdrUnpack input s = .next t) :
    ∃ r, t = s.begin.respond r := by
  unfold execHdrUnpack at h
  split at h
  · rename_i st s1 hscan
    obtain ⟨-, n, r, -, rfl⟩ := scanHeader_stop hscan
    obtain ⟨_, -, rfl⟩ := raiseAtCursor_next h
    exact ⟨_, rfl⟩
  · rename_i s1 hscan
    obtain ⟨b2, b3, b4, b5, body, -, rfl⟩ := scanHeader_done hscan
    injection h with h
    exact ⟨_, h.symm⟩

/-- Every next state of UNPACK is an error response to its header, or what the parser's entry makes of an accepted one. -/
theorem execUnpack_next {input : List Byte} {s t : State} (h : execUnpack input s = .next t) :
    (∃ r, t = s.begin.respond r) ∨
    (∃ k r, routeToParser k input { s.begin with hdr := r, cur := some 6 } = .next t) := by
  unfold execUnpack at h
  split at h
  · rename_i st s1 hscan
    obtain ⟨-, n, r, -, rfl⟩ := scanHeader_stop hscan
    obtain ⟨_, -, rfl⟩ := raiseAtCursor_next h
    exact .inl ⟨_, rfl⟩
  · rename_i s1 hscan
    obtain ⟨b2, b3, b4, b5, body, -, rfl⟩ := scanHeader_done hscan
    simp only [readHeader_full] at h
    split at h
    · obtain ⟨_, -, rfl⟩ := raiseAtCursor_next h
      exact .inl ⟨_, rfl⟩
    · exact .inr ⟨_, _, h⟩

/-- Every next state of PACK is one of the serializer's entry of the kind its tag names. -/
theorem execPack_next {tag : BitVec 4} {x : Payload} {s t : State} (h : execPack tag x s = .next t) :
    ∃ k, Kind.ofTag tag = some k ∧ routeToSerializer k x s.begin = .next t := by
  unfold execPack at h
  split at h
  · cases h
  · rename_i k hk
    exact ⟨k, hk, h⟩

/-- Every next state of a dispatch entry is one of its two sides, as the transaction at the mux has it. -/
theorem dispatchEntry_next {k : Kind} {s t : State} (h : dispatchEntry k s = .next t) :
    (∃ input, s.txn = .unpackAtMux input ∧ routeToParser k input s = .next t) ∨
    (∃ x, s.txn = .packAtMux k x ∧ routeToSerializer k x s = .next t) := by
  unfold dispatchEntry at h
  split at h
  · rename_i input hm
    split at h
    · cases h
    · split at h
      · exact .inl ⟨input, hm, h⟩
      · cases h
  · rename_i k' x hm
    split at h
    · rename_i hk
      subst hk
      exact .inr ⟨x, hm, h⟩
    · cases h
  · cases h
  · cases h

/-- Every next state of a PACK that waits on the sink is one of the sink's turn. -/
theorem waitOnSink_next {accepted : Nat} {s t : State} (h : waitOnSink accepted s = .next t) :
    ∃ p, readPacket s = .ok p ∧ sinkTurn p accepted s = .next t := by
  unfold waitOnSink at h
  split at h
  · cases h
  · rename_i p hp
    exact ⟨p, hp, h⟩

/-- Every instruction is one of the four operations or the dispatch row of a kind. -/
theorem operation_or_dispatchRow (i : Instr) :
    (∃ sid bodyLen, i = .hdrPack sid bodyLen) ∨ (∃ input, i = .hdrUnpack input) ∨ (∃ tag x, i = .pack tag x) ∨
    (∃ input, i = .unpack input) ∨ ∃ k u, i = Instr.dispatchRow k u := by
  cases i with
  | hdrPack sid bodyLen => exact .inl ⟨sid, bodyLen, rfl⟩
  | hdrUnpack input => exact .inr (.inl ⟨input, rfl⟩)
  | pack tag x => exact .inr (.inr (.inl ⟨tag, x, rfl⟩))
  | unpack input => exact .inr (.inr (.inr (.inl ⟨input, rfl⟩)))
  | connReq u => exact .inr (.inr (.inr (.inr ⟨.connReq, u, rfl⟩)))
  | connRes u => exact .inr (.inr (.inr (.inr ⟨.connRes, u, rfl⟩)))
  | connstateReq u => exact .inr (.inr (.inr (.inr ⟨.connstateReq, u, rfl⟩)))
  | connstateRes u => exact .inr (.inr (.inr (.inr ⟨.connstateRes, u, rfl⟩)))
  | discReq u => exact .inr (.inr (.inr (.inr ⟨.discReq, u, rfl⟩)))
  | discRes u => exact .inr (.inr (.inr (.inr ⟨.discRes, u, rfl⟩)))
  | tunnelReq u => exact .inr (.inr (.inr (.inr ⟨.tunnelReq, u, rfl⟩)))
  | tunnelRes u => exact .inr (.inr (.inr (.inr ⟨.tunnelRes, u, rfl⟩)))
  | routingInd u => exact .inr (.inr (.inr (.inr ⟨.routingInd, u, rfl⟩)))
  | routingLost u => exact .inr (.inr (.inr (.inr ⟨.routingLost, u, rfl⟩)))
  | routingBusy u => exact .inr (.inr (.inr (.inr ⟨.routingBusy, u, rfl⟩)))

/-- Every next state of an instruction: a response to a header, the UNPACK side of an entry, or the PACK side of one, from a
state whose transient registers alone the operation has written. -/
theorem exec_next {i : Instr} {s t : State} (h : exec i s = .next t) :
    (∃ r, t = s.begin.respond r) ∨
    (∃ k input hdr cur buf resp,
      routeToParser k input { s with hdr := hdr, cur := cur, buf := buf, resp := resp } = .next t) ∨
    (∃ k x hdr cur buf resp,
      routeToSerializer k x { s with hdr := hdr, cur := cur, buf := buf, resp := resp } = .next t) := by
  obtain ⟨_, _, rfl⟩ | ⟨_, rfl⟩ | ⟨_, _, rfl⟩ | ⟨_, rfl⟩ | ⟨k, u, rfl⟩ := operation_or_dispatchRow i
  · exact .inl (execHdrPack_next h)
  · exact .inl (execHdrUnpack_next h)
  · obtain ⟨k, -, hk⟩ := execPack_next h
    exact .inr (.inr ⟨k, _, _, _, _, _, hk⟩)
  · obtain hr | ⟨k, r, hk⟩ := execUnpack_next h
    · exact .inl hr
    · exact .inr (.inl ⟨k, _, _, _, _, _, hk⟩)
  · rw [exec_dispatchRow] at h
    obtain ⟨input, -, hk⟩ | ⟨x, -, hk⟩ := dispatchEntry_next h
    · exact .inr (.inl ⟨k, input, _, _, _, _, hk⟩)
    · exact .inr (.inr ⟨k, x, _, _, _, _, hk⟩)

/-- A next state answered without an instruction: an idle instance with no request, an UNPACK whose header no row accepts,
or a turn of the sink. -/
theorem fetch_answer_next {s t : State} (h : fetch s = .answer (.next t)) :
    (s.txn = .idle ∧ s.requests = [] ∧ t = s) ∨
    (∃ input r, s.txn = .unpackAtMux input ∧ t = s.respond r) ∨
    (∃ accepted p, s.txn = .sinkWait accepted ∧ readPacket s = .ok p ∧ sinkTurn p accepted s = .next t) := by
  unfold fetch at h
  split at h
  · rename_i hi
    unfold fetchRequest at h
    split at h
    · rename_i hr
      injection h with h; injection h with h
      exact .inl ⟨hi, hr, h.symm⟩
    · cases h
  · rename_i input hm
    unfold fetchEntry at h
    split at h
    · cases h
    · split at h
      · rename_i e _
        injection h with h; injection h with h; subst h
        obtain ⟨st, n, -, hr⟩ := raiseUnaccepted_eq e s
        exact .inr (.inl ⟨input, _, hm, hr⟩)
      · cases h
  · cases h
  · rename_i accepted hm
    injection h with h
    obtain ⟨p, hp, hturn⟩ := waitOnSink_next h
    exact .inr (.inr ⟨accepted, p, hm, hp, hturn⟩)

/-- An exchange that answers a next state has run an instruction, or answered without one. -/
theorem exchange_next {s t : State} (h : exchange s = .next t) :
    (∃ i s1, fetch s = .run i s1 ∧ exec i s1 = .next t) ∨ fetch s = .answer (.next t) := by
  unfold exchange at h
  split at h
  · rename_i i s1 hf
    exact .inl ⟨i, s1, hf, h⟩
  · rename_i o hf
    exact .inr (h ▸ hf)

/-! ### What keeps the parameters -/

/-- `t` has the parameters of `s`: the registry ROM and `P_LEN_OVERFLOW` (R7, R18). A lemma about an updated state serves
the state itself, since no named update names either field. -/
def KeepsParameters (s t : State) : Prop :=
  t.registry = s.registry ∧ t.lenOverflow = s.lenOverflow

theorem sinkTurn_keepsParameters {p : List Byte} {accepted : Nat} {s t : State}
    (h : sinkTurn p accepted s = .next t) : KeepsParameters s t := by
  obtain ⟨_, _, _, rfl, -⟩ | ⟨_, _, rfl⟩ | ⟨_, _, _, _, rfl, -⟩ | ⟨_, -, rfl⟩ := sinkTurn_cases h
  all_goals exact ⟨rfl, rfl⟩

theorem routeToParser_keepsParameters {k : Kind} {input : List Byte} {s t : State}
    (h : routeToParser k input s = .next t) : KeepsParameters s t := by
  obtain ⟨_, _, _, rfl⟩ | ⟨_, _, _, rfl⟩ := routeToParser_cases h
  all_goals exact ⟨rfl, rfl⟩

theorem routeToSerializer_keepsParameters {k : Kind} {x : Payload} {s t : State}
    (h : routeToSerializer k x s = .next t) : KeepsParameters s t := by
  obtain ⟨_, -, heq⟩ | ⟨_, -, -, heq⟩ | ⟨_, -, -, heq⟩ := routeToSerializer_cases k x s
  · cases heq.symm.trans h
    exact ⟨rfl, rfl⟩
  · cases heq.symm.trans h
    exact ⟨rfl, rfl⟩
  · have hkeep := sinkTurn_keepsParameters (heq.symm.trans h)
    exact hkeep

theorem exec_keepsParameters {i : Instr} {s t : State} (h : exec i s = .next t) : KeepsParameters s t := by
  obtain ⟨_, rfl⟩ | ⟨_, _, _, _, _, _, hparse⟩ | ⟨_, _, _, _, _, _, hser⟩ := exec_next h
  · exact ⟨rfl, rfl⟩
  · have hkeep := routeToParser_keepsParameters hparse
    exact hkeep
  · have hkeep := routeToSerializer_keepsParameters hser
    exact hkeep

theorem exchange_keepsParameters {s t : State} (h : exchange s = .next t) : KeepsParameters s t := by
  obtain ⟨i, s1, hf, hexec⟩ | hanswer := exchange_next h
  · have hkeep := exec_keepsParameters hexec
    obtain ⟨_, _, -, -, -, rfl⟩ | ⟨-, rfl, -⟩ := fetch_run_cases hf
    all_goals exact hkeep
  · obtain ⟨-, -, rfl⟩ | ⟨_, _, -, rfl⟩ | ⟨_, _, -, -, hturn⟩ := fetch_answer_next hanswer
    · exact ⟨rfl, rfl⟩
    · exact ⟨rfl, rfl⟩
    · exact sinkTurn_keepsParameters hturn

/-- Wherever a reset lands in the step, it leaves the parameters alone too (R104). -/
theorem step_keepsParameters {s t : State} (h : step s = .next t) : KeepsParameters s t := by
  obtain ⟨-, ⟨-, hexch⟩ | ⟨-, rfl⟩ | ⟨-, _, _, -, -, rfl⟩ | ⟨-, _, hexch, rfl⟩⟩ := step_cases h
  · have hkeep := exchange_keepsParameters hexch
    exact hkeep
  · exact ⟨rfl, rfl⟩
  · exact ⟨rfl, rfl⟩
  · have hkeep := exchange_keepsParameters hexch
    exact hkeep

/-- Settles O44, from the next states of `exec` and of `step`, each of which keeps the parameters. -/
theorem parametersNeverWritten : Obligations.ParametersNeverWritten := by
  unfold Obligations.ParametersNeverWritten
  exact ⟨fun _ _ _ h => exec_keepsParameters h, fun _ _ h => step_keepsParameters h⟩

end Sys2Proof.Machine
end

/-! What the header checks come to, and each operation as an equation over every state it can be issued in. -/

namespace Sys2Proof.Machine

open Sys2Proof.Claims

/-! ### The header checks -/

/-- The statuses of a header that is not accepted (R84, R85, R86, R90): none of them forwards an error. -/
def RejectsHeader (r : Response) : Prop :=
  ∃ st n, (st = .shortInput ∨ st = .hdrLen ∨ st = .hdrVer ∨ st = .unknownService) ∧ r = Response.bare st n none

theorem RejectsHeader.wellFormed {r : Response} (h : RejectsHeader r) : r.wellFormed = true := by
  obtain ⟨_, n, rfl | rfl | rfl | rfl, rfl⟩ := h
  all_goals rfl

theorem RejectsHeader.status_ne_zero {r : Response} (h : RejectsHeader r) : r.status ≠ 0 := by
  obtain ⟨_, n, rfl | rfl | rfl | rfl, rfl⟩ := h
  all_goals simp [Response.bare, Status.code]

/-- The scan of these bytes stops with this status and count, from every state (R92: the checks read nothing else). -/
def ScanStops (bytes : List Byte) (st : Status) (n : Nat) : Prop :=
  (st = .shortInput ∨ st = .hdrLen ∨ st = .hdrVer) ∧
    ∀ s : State, ∃ h, scanHeader bytes s = .stop st { s with hdr := h, cur := some n }

theorem ScanStops.rejectsHeader {bytes : List Byte} {st : Status} {n : Nat} (h : ScanStops bytes st n) :
    RejectsHeader (Response.bare st n none) := by
  obtain ⟨hst, -⟩ := h
  exact ⟨st, n, by tauto, rfl⟩

/-- The bytes are an accepted header and a body, or the scan stops. -/
theorem accepted_or_scanStops (bytes : List Byte) :
    (∃ b2 b3 b4 b5 body, bytes = 0x06 :: 0x10 :: b2 :: b3 :: b4 :: b5 :: body) ∨ ∃ st n, ScanStops bytes st n := by
  match bytes with
  | [] => exact .inr ⟨.shortInput, 0, .inl rfl, fun s => ⟨_, scanHeader_eq [] s⟩⟩
  | b0 :: r0 =>
    by_cases h0 : b0 = 0x06
    case neg => exact .inr ⟨.hdrLen, 1, .inr (.inl rfl), fun s => ⟨_, (scanHeader_eq _ s).trans (if_pos h0)⟩⟩
    subst h0
    match r0 with
    | [] => exact .inr ⟨.shortInput, 1, .inl rfl, fun s => ⟨_, scanHeader_eq _ s⟩⟩
    | b1 :: r1 =>
      by_cases h1 : b1 = 0x10
      case neg =>
        exact .inr ⟨.hdrVer, 2, .inr (.inr rfl), fun s => ⟨_, (scanHeader_eq _ s).trans (if_pos h1)⟩⟩
      subst h1
      match r1 with
      | [] | [_] => exact .inr ⟨.shortInput, 2, .inl rfl, fun s => ⟨_, scanHeader_eq _ s⟩⟩
      | [_, _] | [_, _, _] => exact .inr ⟨.shortInput, 4, .inl rfl, fun s => ⟨_, scanHeader_eq _ s⟩⟩
      | b2 :: b3 :: b4 :: b5 :: body => exact .inl ⟨b2, b3, b4, b5, body, rfl⟩

theorem scanHeader_of_accepted (b2 b3 b4 b5 : Byte) (body : List Byte) (s : State) :
    scanHeader (0x06 :: 0x10 :: b2 :: b3 :: b4 :: b5 :: body) s =
      .done { s with hdr := heldHeader (be16 b2 b3) (be16 b4 b5), cur := some 6 } :=
  scanHeader_eq _ s

/-! ### The operations -/

theorem execHdrPack_eq (sid : Half) (bodyLen : Nat) (s : State) :
    execHdrPack sid bodyLen s = .next (s.begin.respond
      (if 65529 < bodyLen ∧ s.lenOverflow = .refuse then Response.bare .lenOverflow 0 none
       else Response.okHdrPack (builtHeader sid bodyLen).bytes)) := by
  unfold execHdrPack
  by_cases hl : 65529 < bodyLen ∧ s.lenOverflow = .refuse
  · rw [(buildHeader_eq sid bodyLen s.begin).trans (if_pos hl), if_pos hl]
    rfl
  · rw [(buildHeader_eq sid bodyLen s.begin).trans (if_neg hl), if_neg hl]
    rfl

section UnpackedInput

variable {input : List Byte} {s : State}

theorem execHdrUnpack_of_scanStops {st : Status} {n : Nat} (h : ScanStops (seenInput s.inputRace input) st n) :
    execHdrUnpack input s = .next (s.begin.respond (Response.bare st n none)) := by
  obtain ⟨-, hall⟩ := h
  obtain ⟨hdr, hscan⟩ := hall s.begin
  unfold execHdrUnpack
  rw [hscan]
  rfl

theorem execUnpack_of_scanStops {st : Status} {n : Nat} (h : ScanStops (seenInput s.inputRace input) st n) :
    execUnpack input s = .next (s.begin.respond (Response.bare st n none)) := by
  obtain ⟨-, hall⟩ := h
  obtain ⟨hdr, hscan⟩ := hall s.begin
  unfold execUnpack
  rw [hscan]
  rfl

variable {b2 b3 b4 b5 : Byte} {body : List Byte}

theorem execHdrUnpack_of_accepted (h : seenInput s.inputRace input = 0x06 :: 0x10 :: b2 :: b3 :: b4 :: b5 :: body) :
    execHdrUnpack input s = .next (s.begin.respond (okFields (be16 b2 b3) (be16 b4 b5))) := by
  unfold execHdrUnpack
  rw [h, scanHeader_of_accepted]
  rfl

/-- UNPACK of an accepted header ends with UNKNOWN_SERVICE, or is the parser's entry of the kind looked up (R76). -/
theorem execUnpack_of_accepted (h : seenInput s.inputRace input = 0x06 :: 0x10 :: b2 :: b3 :: b4 :: b5 :: body) :
    execUnpack input s =
      match regLookup s.registry (be16 b2 b3) with
      | none   => .next (s.begin.respond (Response.bare .unknownService 6 none))
      | some k => routeToParser k input
          { s.begin with hdr := heldHeader (be16 b2 b3) (be16 b4 b5), cur := some 6 } := by
  unfold execUnpack
  rw [h, scanHeader_of_accepted]
  simp only [heldHeader, readHeader_full, State.begin_registry]
  cases regLookup s.registry (be16 b2 b3) <;> rfl

end UnpackedInput

/-- What UNPACK makes of its input depends on the registry and the interference alone: it rejects the header, or is the
parser's entry of a kind. -/
theorem execUnpack_cases (reg : Registry) (race : List (Option Byte)) (input : List Byte) :
    (∃ r, RejectsHeader r ∧
      ∀ s : State, s.registry = reg → s.inputRace = race → execUnpack input s = .next (s.begin.respond r)) ∨
    (∃ k h, ∀ s : State, s.registry = reg → s.inputRace = race →
      execUnpack input s = routeToParser k input { s.begin with hdr := h, cur := some 6 }) := by
  obtain ⟨b2, b3, b4, b5, body, hseen⟩ | ⟨st, n, hstop⟩ := accepted_or_scanStops (seenInput race input)
  · cases hk : regLookup reg (be16 b2 b3) with
    | none =>
      refine .inl ⟨_, ⟨.unknownService, 6, by simp, rfl⟩, ?_⟩
      rintro s rfl rfl
      rw [execUnpack_of_accepted hseen, hk]
    | some k =>
      refine .inr ⟨k, heldHeader (be16 b2 b3) (be16 b4 b5), ?_⟩
      rintro s rfl rfl
      rw [execUnpack_of_accepted hseen, hk]
  · refine .inl ⟨_, hstop.rejectsHeader, ?_⟩
    rintro s - rfl
    exact execUnpack_of_scanStops hstop

/-- What HDR_UNPACK makes of its input depends on the interference alone: it rejects the header, or gives both fields. -/
theorem execHdrUnpack_cases (race : List (Option Byte)) (input : List Byte) :
    ∃ r, (RejectsHeader r ∨ ∃ service totalLen, r = okFields service totalLen) ∧
      ∀ s : State, s.inputRace = race → execHdrUnpack input s = .next (s.begin.respond r) := by
  obtain ⟨b2, b3, b4, b5, body, hseen⟩ | ⟨st, n, hstop⟩ := accepted_or_scanStops (seenInput race input)
  · refine ⟨_, .inr ⟨be16 b2 b3, be16 b4 b5, rfl⟩, ?_⟩
    rintro s rfl
    exact execHdrUnpack_of_accepted hseen
  · refine ⟨_, .inl hstop.rejectsHeader, ?_⟩
    rintro s rfl
    exact execHdrUnpack_of_scanStops hstop

/-- All four values of `op` name an operation (R47). -/
theorem decodeRequest_cases (r : Request) :
    decodeRequest r = .hdrPack r.sid r.bodyLen ∨ decodeRequest r = .hdrUnpack r.input ∨
    decodeRequest r = .pack r.kind r.payload ∨ decodeRequest r = .unpack r.input := by
  unfold decodeRequest
  split <;> simp

/-- The sink's turn sets the transaction's place itself. -/
theorem sinkTurn_holdAt (p : List Byte) (acc : Nat) (t : Txn) (s : State) :
    sinkTurn p acc (s.holdAt t) = sinkTurn p acc s := by
  unfold sinkTurn
  rw [State.holdAt_sinkTurns]
  split <;> rfl

/-- The PACK side of an entry, from its serializer's answer on: SERIALIZE, LEN_OVERFLOW, or the packet stands at the sink. -/
theorem routeToSerializer_eq (k : Kind) (x : Payload) (s : State) :
    routeToSerializer k x s =
      match s.serDraws.head with
      | .err e => .next ((s.drawSer.logCall (.serialize k x)).respond (Response.bare .serialize 0 (some e)))
      | .ok body =>
        if 65529 < body.length ∧ s.lenOverflow = .refuse then
          .next ((s.drawSer.logCall (.serialize k x)).respond (Response.bare .lenOverflow 0 none))
        else sinkTurn (packetOf s.registry k body) 0 (atSink s k x body 0) := by
  obtain ⟨e, hd, heq⟩ | ⟨body, hd, hl, heq⟩ | ⟨body, hd, hl, heq⟩ := routeToSerializer_cases k x s
  · rw [heq, hd]
  · rw [heq, hd]
    exact (if_pos hl).symm
  · rw [heq, hd, List.append_assoc]
    exact (sinkTurn_holdAt _ 0 (.sinkWait 0) _).symm.trans (if_neg hl).symm

/-- The instruction of a row in the opcode table is the dispatch row of its kind. -/
theorem row_eq_dispatchRow {p : (Half → Instr) × Kind} (hp : p ∈ rows) (u : Half) : p.1 u = Instr.dispatchRow p.2 u := by
  revert p
  simp [rows, Instr.dispatchRow]

theorem exec_row {p : (Half → Instr) × Kind} (hp : p ∈ rows) (u : Half) (s : State) :
    exec (p.1 u) s = dispatchEntry p.2 s := by
  rw [row_eq_dispatchRow hp, exec_dispatchRow]

end Sys2Proof.Machine

/-! How a transaction can end or stay open, and the invariant that every step keeps. -/

namespace Sys2Proof.Machine

open Sys2Proof.Claims

/-! ### Endings -/

/-- `t` has just ended a transaction before which the requester's slot held `slot`: with a well-formed response that leaves
the slot, with an instance delivered into it (R25, R78), or by a reset (R103). -/
inductive EndedFrom (slot : Service) (t : State) : Prop where
  | responds (u : State) (r : Response) (hwf : r.wellFormed = true) (ht : t = u.respond r)
      (hslot : u.svcOut = slot)
  | delivers (u : State) (k : Kind) (m : Nat) (inst : Instance)
      (ht : t = (u.storeSvc k inst).respond (okInstance (6 + m) k inst))
  | aborts (u : State) (ht : t = u.applyReset) (hslot : u.svcOut = slot)

/-- `t` is `s` waiting on after a turn of the sink, which has now taken `acc'` bytes of a packet of length `len`, `acc` of
them before the turn. -/
def WaitsFrom (s : State) (len acc : Nat) (t : State) : Prop :=
  ∃ bytes rest acc', t = (s.drawSink bytes rest).holdAt (.sinkWait acc') ∧ (acc' = acc ∨ acc ≤ acc' ∧ acc' ≤ len)

theorem okInstance_wellFormed (m : Nat) (k : Kind) (inst : Instance) : (okInstance (6 + m) k inst).wellFormed = true := by
  have htag : tagNamesKind k.tag = true := by cases k <;> rfl
  simp [Response.wellFormed, okInstance, plain, htag]

theorem sinkTurn_ended_or_waits {p : List Byte} {acc : Nat} {s t : State} (h : sinkTurn p acc s = .next t) :
    EndedFrom s.svcOut t ∨ WaitsFrom s p.length acc t := by
  obtain hwait | ⟨_, _, ht⟩ | ⟨_, _, _, _, ht, -⟩ | ⟨_, -, ht⟩ := sinkTurn_cases h
  · exact .inr hwait
  · exact .inl (.responds _ _ rfl ht rfl)
  · exact .inl (.responds _ _ rfl ht rfl)
  · exact .inl (.aborts _ ht rfl)

theorem routeToParser_ended {k : Kind} {input : List Byte} {s t : State} (h : routeToParser k input s = .next t) :
    EndedFrom s.svcOut t := by
  obtain ⟨_, m, inst, ht⟩ | ⟨_, _, _, ht⟩ := routeToParser_cases h
  · exact .delivers _ k m inst ht
  · exact .responds _ _ rfl ht rfl

@[simp] theorem packetOf_length (reg : Registry) (k : Kind) (body : List Byte) :
    (packetOf reg k body).length = 6 + body.length := by
  simp [packetOf, headerOf]
  omega

theorem routeToSerializer_ended_or_waits {k : Kind} {x : Payload} {s t : State}
    (h : routeToSerializer k x s = .next t) :
    EndedFrom s.svcOut t ∨ ∃ body, WaitsFrom (atSink s k x body 0) (6 + body.length) 0 t := by
  rw [routeToSerializer_eq] at h
  split at h
  · injection h with h
    exact .inl (.responds _ _ rfl h.symm rfl)
  · rename_i body _
    split at h
    · injection h with h
      exact .inl (.responds _ _ rfl h.symm rfl)
    · obtain hend | hwait := sinkTurn_ended_or_waits h
      · exact .inl hend
      · rw [packetOf_length] at hwait
        exact .inr ⟨body, hwait⟩

/-- An operation from its request on ends, or is a PACK that waits at the sink with nothing left over from before. -/
theorem exec_decodeRequest_ended_or_waits {r : Request} {s t : State} (h : exec (decodeRequest r) s = .next t) :
    EndedFrom s.svcOut t ∨ ∃ k x body, WaitsFrom (atSink s.begin k x body 0) (6 + body.length) 0 t := by
  obtain hop | hop | hop | hop := decodeRequest_cases r
  all_goals rw [hop] at h
  · cases (execHdrPack_eq _ _ s).symm.trans h
    exact .inl (.responds _ _ (by split <;> rfl) rfl rfl)
  · obtain ⟨resp, hresp, heq⟩ := execHdrUnpack_cases s.inputRace r.input
    cases (heq s rfl).symm.trans h
    obtain hrej | ⟨_, _, rfl⟩ := hresp
    · exact .inl (.responds _ _ hrej.wellFormed rfl rfl)
    · exact .inl (.responds _ _ rfl rfl rfl)
  · obtain ⟨k, -, hser⟩ := execPack_next h
    obtain hend | ⟨body, hwait⟩ := routeToSerializer_ended_or_waits hser
    · exact .inl hend
    · exact .inr ⟨k, _, body, hwait⟩
  · obtain ⟨resp, hrej, heq⟩ | ⟨k, hdr, heq⟩ := execUnpack_cases s.registry s.inputRace r.input
    · cases (heq s rfl rfl).symm.trans h
      exact .inl (.responds _ _ hrej.wellFormed rfl rfl)
    · exact .inl (routeToParser_ended ((heq s rfl rfl).symm.trans h))

theorem dispatchEntry_ended_or_waits {k : Kind} {s t : State} (h : dispatchEntry k s = .next t) :
    EndedFrom s.svcOut t ∨
    ∃ x body, s.txn = .packAtMux k x ∧ WaitsFrom (atSink s k x body 0) (6 + body.length) 0 t := by
  obtain ⟨_, -, hparse⟩ | ⟨x, hm, hser⟩ := dispatchEntry_next h
  · exact .inl (routeToParser_ended hparse)
  · obtain hend | ⟨body, hwait⟩ := routeToSerializer_ended_or_waits hser
    · exact .inl hend
    · exact .inr ⟨x, body, hm, hwait⟩

/-- What a step answers without an instruction. -/
theorem fetch_answer_cases {s : State} {o : Host.Outcome State Fault Refusal} (h : fetch s = .answer o) :
    (s.txn = .idle ∧ s.requests = [] ∧ o = .next s) ∨
    (∃ input, s.txn = .unpackAtMux input ∧
      ((∃ f, readHeader s.hdr = .error f ∧ o = .fault f) ∨ ∃ r, RejectsHeader r ∧ o = .next (s.respond r))) ∨
    (∃ acc, s.txn = .sinkWait acc ∧ o = waitOnSink acc s) := by
  unfold fetch at h
  split at h
  · rename_i hm
    unfold fetchRequest at h
    split at h
    · rename_i hr
      injection h with h
      exact .inl ⟨hm, hr, h.symm⟩
    · cases h
  · rename_i input hm
    refine .inr (.inl ⟨input, hm, ?_⟩)
    unfold fetchEntry at h
    split at h
    · rename_i f hf
      injection h with h
      exact .inl ⟨f, hf, h.symm⟩
    · split at h
      · rename_i e _
        injection h with h
        obtain ⟨st, n, hst, heq⟩ := raiseUnaccepted_eq e s
        exact .inr ⟨_, ⟨st, n, hst, rfl⟩, by rw [← h, heq]⟩
      · cases h
  · cases h
  · rename_i acc hm
    injection h with h
    exact .inr (.inr ⟨acc, hm, h.symm⟩)

/-! ### The invariant -/

@[simp] theorem respond_consistent (s : State) (r : Response) : (s.respond r).consistent = r.wellFormed := by
  simp [State.consistent, State.txnConsistent]

@[simp] theorem applyReset_consistent (s : State) : s.applyReset.consistent = true := by
  simp [State.consistent, State.txnConsistent]

@[simp] theorem passMoment_consistent (s : State) : s.passMoment.consistent = s.consistent := rfl

theorem EndedFrom.consistent {slot : Service} {t : State} (h : EndedFrom slot t) : t.consistent = true := by
  cases h with
  | responds u r hwf ht _ => rw [ht, respond_consistent, hwf]
  | delivers u k m inst ht => rw [ht, respond_consistent, okInstance_wellFormed]
  | aborts u ht _ => rw [ht, applyReset_consistent]

/-- The packet of a body of kind `k` stands in `H` and `BUF`, and nothing else holds a value (R22, R75). -/
structure Framed (s : State) (k : Kind) (body : List Byte) : Prop where
  hdr  : s.hdr = heldHeader (s.registry.serviceId k) (BitVec.ofNat 16 (body.length + 6))
  buf  : s.buf = some body
  cur  : s.cur = none
  resp : s.resp = none

theorem Framed.readPacket {s : State} {k : Kind} {body : List Byte} (h : Framed s k body) :
    readPacket s = .ok (packetOf s.registry k body) := by
  simp only [Machine.readPacket, h.hdr, h.buf, heldHeader, readHeader_full]
  rfl

/-- A PACK that waits on the sink is consistent exactly when its packet is framed and the sink has not taken more. -/
theorem consistent_sinkWait_iff {s : State} {acc : Nat} (hm : s.txn = .sinkWait acc) :
    s.consistent = true ↔ ∃ k body, Framed s k body ∧ acc ≤ 6 + body.length := by
  constructor
  · intro h
    simp only [State.consistent, State.txnConsistent, hm, Bool.and_eq_true] at h
    obtain ⟨htxn, -⟩ := h
    split at htxn
    · rename_i h body hh hbuf
      simp only [Bool.and_eq_true, beq_iff_eq, decide_eq_true_eq] at htxn
      obtain ⟨⟨⟨⟨⟨⟨hl, hv⟩, hs⟩, ht⟩, hacc⟩, hcur⟩, hresp⟩ := htxn
      obtain ⟨k, hk⟩ := Option.isSome_iff_exists.mp hs
      refine ⟨k, body, ⟨?_, hbuf, hcur, hresp⟩, hacc⟩
      rw [(readHeader_eq_ok_iff _ _).mp hh, hl, hv, ht, serviceId_of_regLookup hk]
      rfl
    · cases htxn
  · rintro ⟨k, body, ⟨hhdr, hbuf, hcur, hresp⟩, hacc⟩
    simp [State.consistent, State.txnConsistent, hm, hhdr, hbuf, hcur, hresp, hacc, heldHeader, regLookup_isSome]

theorem WaitsFrom.consistent {s t : State} {k : Kind} {body : List Byte} {acc : Nat} (hf : Framed s k body)
    (hacc : acc ≤ 6 + body.length) (h : WaitsFrom s (6 + body.length) acc t) : t.consistent = true := by
  obtain ⟨bytes, rest, acc', rfl, hacc'⟩ := h
  refine (consistent_sinkWait_iff rfl).mpr ⟨k, body, ⟨hf.hdr, hf.buf, hf.cur, hf.resp⟩, ?_⟩
  omega

theorem framed_atSink {s : State} (hcur : s.cur = none) (hresp : s.resp = none) (k : Kind) (x : Payload)
    (body : List Byte) (acc : Nat) : Framed (atSink s k x body acc) k body :=
  ⟨rfl, rfl, hcur, hresp⟩

theorem consistent_packAtMux {s : State} {k : Kind} {x : Payload} (hm : s.txn = .packAtMux k x)
    (h : s.consistent = true) : s.cur = none ∧ s.resp = none := by
  simp only [State.consistent, State.txnConsistent, hm, Bool.and_eq_true, beq_iff_eq] at h
  obtain ⟨⟨⟨⟨-, hcur⟩, -⟩, hresp⟩, -⟩ := h
  exact ⟨hcur, hresp⟩

theorem consistent_unpackAtMux {s : State} {input : List Byte} (hm : s.txn = .unpackAtMux input)
    (h : s.consistent = true) : ∃ hd, readHeader s.hdr = .ok hd := by
  simp only [State.consistent, State.txnConsistent, hm, Bool.and_eq_true] at h
  obtain ⟨htxn, -⟩ := h
  split at htxn
  · cases htxn
  · rename_i hd hread
    exact ⟨hd, hread⟩

/-! ### No exchange of a consistent state faults -/

theorem routeToSerializer_no_fault (k : Kind) (x : Payload) (s : State) (f : Fault) :
    routeToSerializer k x s ≠ .fault f := by
  rw [routeToSerializer_eq]
  split
  · simp
  · split
    · simp
    · exact sinkTurn_no_fault _ _ _ f

/-- An operation reads no field it has not written, whatever was left before it (R20). -/
theorem exec_decodeRequest_no_fault (r : Request) (s : State) (f : Fault) : exec (decodeRequest r) s ≠ .fault f := by
  intro h
  obtain hop | hop | hop | hop := decodeRequest_cases r
  all_goals rw [hop] at h
  · cases (execHdrPack_eq _ _ s).symm.trans h
  · obtain ⟨_, -, heq⟩ := execHdrUnpack_cases s.inputRace r.input
    cases (heq s rfl).symm.trans h
  · simp only [exec, execPack] at h
    split at h
    · cases h
    · exact routeToSerializer_no_fault _ _ _ f h
  · obtain ⟨_, -, heq⟩ | ⟨k, _, heq⟩ := execUnpack_cases s.registry s.inputRace r.input
    · cases (heq s rfl rfl).symm.trans h
    · exact routeToParser_no_fault k _ _ f ((heq s rfl rfl).symm.trans h)

theorem dispatchEntry_no_fault {s : State} (hs : s.consistent = true) (k : Kind) (f : Fault) :
    dispatchEntry k s ≠ .fault f := by
  unfold dispatchEntry
  split
  · rename_i input hm
    obtain ⟨hd, hread⟩ := consistent_unpackAtMux hm hs
    simp only [hread]
    split
    · exact routeToParser_no_fault k _ _ f
    · simp
  · split
    · exact routeToSerializer_no_fault k _ _ f
    · simp
  · simp
  · simp

theorem exchange_no_fault {s : State} (hs : s.consistent = true) (f : Fault) : exchange s ≠ .fault f := by
  unfold exchange
  split
  · rename_i i s1 hfetch
    obtain ⟨r, rest, -, -, rfl, rfl⟩ | ⟨-, rfl, k, t, rfl⟩ := fetch_run_cases hfetch
    · exact exec_decodeRequest_no_fault _ _ f
    · rw [exec_dispatchRow]
      exact dispatchEntry_no_fault hs k f
  · rename_i o hfetch
    obtain ⟨-, -, rfl⟩ | ⟨input, hm, ⟨f', herr, rfl⟩ | ⟨r, -, rfl⟩⟩ | ⟨acc, hm, rfl⟩ := fetch_answer_cases hfetch
    · simp
    · obtain ⟨hd, hread⟩ := consistent_unpackAtMux hm hs
      cases hread.symm.trans herr
    · simp
    · obtain ⟨k, body, hframed, -⟩ := (consistent_sinkWait_iff hm).mp hs
      simp only [waitOnSink, hframed.readPacket]
      exact sinkTurn_no_fault _ _ _ f

/-- A step faults only where its exchange does. -/
theorem step_fault {s : State} {f : Fault} (h : step s = .fault f) : exchange s.passMoment = .fault f := by
  unfold step takeStep at h
  split at h
  · cases h
  · split at h
    · exact h
    · cases h
    · unfold abortAccepted at h
      split at h
      · rename_i i s1 _
        split at h
        · cases h
        · rename_i hwf
          obtain ⟨r, hr⟩ := exec_of_not_wellFormed (by simpa using hwf) s1
          cases hr.symm.trans h
      · cases h
    · cases hex : exchange s.passMoment with
      | next t => rw [hex] at h; cases h
      | fault f' => rw [hex] at h; cases h; rfl
      | refused r => rw [hex] at h; cases h

/-! ### Every next state of a consistent state is consistent -/

theorem exchange_consistent {s t : State} (hs : s.consistent = true) (h : exchange s = .next t) :
    t.consistent = true := by
  obtain ⟨i, s1, hfetch, hexec⟩ | hanswer := exchange_next h
  · obtain ⟨r, rest, -, -, rfl, rfl⟩ | ⟨-, rfl, k, u, rfl⟩ := fetch_run_cases hfetch
    · obtain hend | ⟨k, x, body, hwait⟩ := exec_decodeRequest_ended_or_waits hexec
      · exact hend.consistent
      · exact hwait.consistent (framed_atSink rfl rfl k x body 0) (Nat.zero_le _)
    · rw [exec_dispatchRow] at hexec
      obtain hend | ⟨x, body, hm, hwait⟩ := dispatchEntry_ended_or_waits hexec
      · exact hend.consistent
      · obtain ⟨hcur, hresp⟩ := consistent_packAtMux hm hs
        exact hwait.consistent (framed_atSink hcur hresp k x body 0) (Nat.zero_le _)
  · obtain ⟨-, -, ho⟩ | ⟨input, -, ⟨f, -, ho⟩ | ⟨r, hrej, ho⟩⟩ | ⟨acc, hm, ho⟩ := fetch_answer_cases hanswer
    · cases ho
      exact hs
    · cases ho
    · cases ho
      rw [respond_consistent, hrej.wellFormed]
    · obtain ⟨k, body, hframed, hacc⟩ := (consistent_sinkWait_iff hm).mp hs
      obtain ⟨p, hp, hturn⟩ := waitOnSink_next ho.symm
      cases hframed.readPacket.symm.trans hp
      obtain hend | hwait := sinkTurn_ended_or_waits hturn
      · exact hend.consistent
      · rw [packetOf_length] at hwait
        exact hwait.consistent hframed hacc

theorem step_consistent {s t : State} (hs : s.consistent = true) (h : step s = .next t) : t.consistent = true := by
  obtain ⟨-, ⟨-, hexch⟩ | ⟨-, rfl⟩ | ⟨-, _, _, -, -, rfl⟩ | ⟨-, _, -, rfl⟩⟩ := step_cases h
  · exact exchange_consistent (s := s.passMoment) hs hexch
  all_goals exact applyReset_consistent _

theorem step_no_fault {s : State} (hs : s.consistent = true) (f : Fault) : step s ≠ .fault f :=
  fun h => exchange_no_fault (s := s.passMoment) hs f (step_fault h)

/-- Settles O49: the exchange of a consistent state does not fault and keeps the invariant, and a reset establishes it. -/
theorem stepKeepsConsistency : Obligations.StepKeepsConsistency := by
  unfold Obligations.StepKeepsConsistency
  exact fun _ hs => ⟨step_no_fault hs, fun _ h => step_consistent hs h⟩

/-- Settles O50, by evaluation: the reset state is a closed term. -/
theorem resetIsConsistent : Obligations.ResetIsConsistent := by
  unfold Obligations.ResetIsConsistent
  decide

/-- Settles O51, by induction on the number of steps: each step does not fault and keeps the invariant (O49). -/
theorem consistentRunsNeverFault : Obligations.ConsistentRunsNeverFault := by
  unfold Obligations.ConsistentRunsNeverFault
  intro s n hs
  induction n generalizing s with
  | zero => exact fun f h => by cases h
  | succ n ih =>
    intro f h
    cases hstep : step s with
    | next t => exact ih t (step_consistent hs hstep) f (runSteps_succ_of_next hstep n ▸ h)
    | fault f' => exact step_no_fault hs f' hstep
    | refused r => cases (runSteps_succ_of_refused hstep n).symm.trans h

end Sys2Proof.Machine

/-! What UNPACK delivers, what a new response holds, and what no transaction leaves to the next. -/

namespace Sys2Proof.Machine

open Sys2Proof.Claims

/-! ### UNPACK delivers the parser's instance -/

/-- Under an injective registry the lookup of a kind's identifier finds that kind (R19, R59). -/
theorem regLookup_serviceId {reg : Registry} (hinj : reg.injective = true) (k : Kind) :
    regLookup reg (reg.serviceId k) = some k := by
  obtain ⟨j, hj⟩ := Option.isSome_iff_exists.mp (regLookup_isSome reg k)
  have hsame : j = k := by
    by_contra hne
    exact (Registry.injective_iff reg).mp hinj j k hne (serviceId_of_regLookup hj)
  rw [hj, hsame]

theorem routeToParser_of_ok {k : Kind} {input slice : List Byte} {s : State} {m : Nat} {inst : Instance}
    (hd : s.parseDraws.head = .ok m inst) (hslice : bodySlice (seenInput s.inputRace input) = slice)
    (hm : m ≤ slice.length) :
    routeToParser k input s = .next
      { ended s (okInstance (6 + m) k inst) with
          svcOut := { kind := k, inst := inst }
          parseDraws := s.parseDraws.tail
          calls := s.calls ++ [.parse k (s.registry.entry k).zero slice] } := by
  subst hslice
  simp only [routeToParser, hd]
  exact if_pos hm

/-- Settles O21: the header is accepted, its identifier is found, and the parser's entry delivers the instance. -/
theorem unpackDeliversInstance : Obligations.UnpackDeliversInstance := by
  unfold Obligations.UnpackDeliversInstance
  intro s input k b2 b3 b4 b5 body m inst hinj hseen hsid hd hm
  have hk : regLookup s.registry (be16 b2 b3) = some k := by
    rw [show be16 b2 b3 = s.registry.serviceId k from hsid, regLookup_serviceId hinj]
  have hslice : bodySlice (seenInput s.inputRace input) = body := by rw [hseen]; rfl
  calc exec (.unpack input) s
      = routeToParser k input { s.begin with hdr := heldHeader (be16 b2 b3) (be16 b4 b5), cur := some 6 } := by
        refine (execUnpack_of_accepted hseen).trans ?_
        rw [hk]
    _ = _ := routeToParser_of_ok hd hslice hm

/-! ### The slot and the response of a next state -/

/-- An exchange ends its transaction, or leaves the slot and puts no response on the port. -/
theorem exchange_ended_or_silent {s t : State} (h : exchange s = .next t) :
    EndedFrom s.svcOut t ∨ t.svcOut = s.svcOut ∧ (t.resp = s.resp ∨ t.resp = none) := by
  obtain ⟨i, s1, hfetch, hexec⟩ | hanswer := exchange_next h
  · obtain ⟨r, rest, -, -, rfl, rfl⟩ | ⟨-, rfl, k, u, rfl⟩ := fetch_run_cases hfetch
    · obtain hend | ⟨_, _, _, _, _, _, rfl, -⟩ := exec_decodeRequest_ended_or_waits hexec
      · exact .inl hend
      · exact .inr ⟨rfl, .inr rfl⟩
    · rw [exec_dispatchRow] at hexec
      obtain hend | ⟨_, _, -, _, _, _, rfl, -⟩ := dispatchEntry_ended_or_waits hexec
      · exact .inl hend
      · exact .inr ⟨rfl, .inl rfl⟩
  · obtain ⟨-, -, ho⟩ | ⟨_, -, ⟨_, -, ho⟩ | ⟨r, hrej, ho⟩⟩ | ⟨acc, -, ho⟩ := fetch_answer_cases hanswer
    · cases ho
      exact .inr ⟨rfl, .inl rfl⟩
    · cases ho
    · cases ho
      exact .inl (.responds _ _ hrej.wellFormed rfl rfl)
    · obtain ⟨_, -, hturn⟩ := waitOnSink_next ho.symm
      obtain hend | ⟨_, _, _, rfl, -⟩ := sinkTurn_ended_or_waits hturn
      · exact .inl hend
      · exact .inr ⟨rfl, .inl rfl⟩

/-- Settles O25: of the ends of an exchange only a delivery writes the slot, and a reset before the response undoes it. -/
theorem svcOutChangesOnlyByOkUnpack : Obligations.SvcOutChangesOnlyByOkUnpack := by
  unfold Obligations.SvcOutChangesOnlyByOkUnpack
  intro s t h
  obtain ⟨-, ⟨-, hexch⟩ | ⟨-, rfl⟩ | ⟨-, _, _, -, -, rfl⟩ | ⟨-, _, -, rfl⟩⟩ := step_cases h
  · obtain (⟨u, r, -, rfl, hslot⟩ | ⟨u, k, m, inst, rfl⟩ | ⟨u, rfl, hslot⟩) | ⟨hslot, -⟩ :=
      exchange_ended_or_silent hexch
    · exact .inl hslot
    · exact .inr ⟨rfl, 6 + m, rfl⟩
    · exact .inl hslot
    · exact .inl hslot
  all_goals exact .inl rfl

/-- A response that a step newly puts on the port is well formed. -/
theorem step_new_resp_wellFormed {s t : State} {r : Response} (h : step s = .next t) (hr : t.resp = some r)
    (hnew : t.resp ≠ s.resp) : r.wellFormed = true := by
  obtain ⟨-, ⟨-, hexch⟩ | ⟨-, rfl⟩ | ⟨-, _, _, -, -, rfl⟩ | ⟨-, _, -, rfl⟩⟩ := step_cases h
  · obtain (⟨u, r', hwf, rfl, -⟩ | ⟨u, k, m, inst, rfl⟩ | ⟨u, rfl, -⟩) | ⟨-, hold | hnone⟩ :=
      exchange_ended_or_silent hexch
    · cases hr
      exact hwf
    · cases hr
      exact okInstance_wellFormed m k inst
    · cases hr
    · exact absurd hold hnew
    · rw [hnone] at hr
      cases hr
  all_goals cases hr

/-- What well-formedness says, in the words of R24 and R83. -/
theorem Response.wellFormed_defines {r : Response} (h : r.wellFormed = true) :
    r.status.toNat ≤ 8 ∧ (r.err ≠ none ↔ r.status = 4 ∨ r.status = 6 ∨ r.status = 7) ∧
    (r.status ≠ 0 → r.hdr = none ∧ r.service = none ∧ r.totalLen = none ∧ r.kind = none ∧ r.inst = none) := by
  simp only [Response.wellFormed, Bool.and_eq_true, decide_eq_true_eq, beq_iff_eq] at h
  obtain ⟨⟨hcode, herr⟩, hresults⟩ := h
  refine ⟨hcode, ?_, fun hne => ?_⟩
  · rw [← Option.isSome_iff_ne_none, herr]
    simp [or_assoc]
  · have hstatus : (r.status == 0) = false := by simpa using hne
    split at hresults
    · simp [*]
    all_goals simp only [hstatus, Bool.false_and, Bool.false_eq_true] at hresults

/-! ### What an OK response holds -/

theorem routeToParser_ok_resp {k : Kind} {input : List Byte} {s t : State} {r : Response}
    (h : routeToParser k input s = .next t) (hr : t.resp = some r) (hok : r.status = 0) :
    ∃ m inst, r = okInstance (6 + m) k inst := by
  obtain ⟨_, m, inst, rfl⟩ | ⟨_, _, _, rfl⟩ := routeToParser_cases h
  · exact ⟨m, inst, (Option.some.inj hr).symm⟩
  · cases hr
    exact absurd hok (by decide : (4 : BitVec 4) ≠ 0)

theorem sinkTurn_ok_resp {p : List Byte} {acc : Nat} {s t : State} {r : Response}
    (h : sinkTurn p acc s = .next t) (hidle : t.txn = .idle ∨ s.resp = none) (hr : t.resp = some r)
    (hok : r.status = 0) : r = plain 0 r.n := by
  obtain ⟨_, _, _, rfl, -⟩ | ⟨_, _, rfl⟩ | ⟨_, _, _, _, rfl, -⟩ | ⟨_, -, rfl⟩ := sinkTurn_cases h
  · obtain hidle | hnone := hidle
    · cases hidle
    · cases hnone.symm.trans hr
  · cases hr
    rfl
  · cases hr
    exact absurd hok (by decide : (7 : BitVec 4) ≠ 0)
  · cases hr

theorem routeToSerializer_ok_resp {k : Kind} {x : Payload} {s t : State} {r : Response}
    (h : routeToSerializer k x s = .next t) (hidle : t.txn = .idle ∨ s.resp = none) (hr : t.resp = some r)
    (hok : r.status = 0) : r = plain 0 r.n := by
  rw [routeToSerializer_eq] at h
  split at h
  · cases h
    cases hr
    exact absurd hok (by decide : (6 : BitVec 4) ≠ 0)
  · split at h
    · cases h
      cases hr
      exact absurd hok (by decide : (8 : BitVec 4) ≠ 0)
    · exact sinkTurn_ok_resp h hidle hr hok

theorem execHdrPack_ok_resp {sid : Half} {bodyLen : Nat} {s t : State} {r : Response}
    (h : execHdrPack sid bodyLen s = .next t) (hr : t.resp = some r) (hok : r.status = 0) :
    ∃ bytes, bytes.length = 6 ∧ r = { plain 0 6 with hdr := some bytes } := by
  cases (execHdrPack_eq sid bodyLen s).symm.trans h
  obtain rfl := Option.some.inj hr
  split at hok
  · exact absurd hok (by decide : (8 : BitVec 4) ≠ 0)
  · rename_i hl
    exact ⟨_, Header.bytes_length (builtHeader sid bodyLen), if_neg hl⟩

theorem execHdrUnpack_ok_resp {input : List Byte} {s t : State} {r : Response}
    (h : execHdrUnpack input s = .next t) (hr : t.resp = some r) (hok : r.status = 0) :
    ∃ service totalLen, r = okFields service totalLen := by
  obtain ⟨r', hresp, heq⟩ := execHdrUnpack_cases s.inputRace input
  cases (heq s rfl).symm.trans h
  obtain rfl := Option.some.inj hr
  exact hresp.resolve_left fun hrej => hrej.status_ne_zero hok

theorem execUnpack_ok_resp {input : List Byte} {s t : State} {r : Response}
    (h : execUnpack input s = .next t) (hr : t.resp = some r) (hok : r.status = 0) :
    ∃ n k inst, r = okInstance (6 + n) k inst := by
  obtain ⟨r', hrej, heq⟩ | ⟨k, _, heq⟩ := execUnpack_cases s.registry s.inputRace input
  · cases (heq s rfl rfl).symm.trans h
    obtain rfl := Option.some.inj hr
    exact absurd hok hrej.status_ne_zero
  · obtain ⟨m, inst, hm⟩ := routeToParser_ok_resp ((heq s rfl rfl).symm.trans h) hr hok
    exact ⟨m, k, inst, hm⟩

theorem passed_one (s : State) : passed 1 s = s.passMoment := by
  simp [passed, State.passMoment]

/-- A running instance takes its step with no reset in it. -/
theorem step_of_running {s : State} (hrun : running 1 s) : step s = exchange s.passMoment := by
  obtain ⟨hinj, hlow⟩ := hrun
  refine step_of_low hinj ?_
  cases hline : s.resetLine with
  | nil => exact State.moment_of_nil s hline
  | cons m ms => rw [State.moment_of_cons s hline, hlow m (by simp [hline])]

/-- The step of a running instance whose PACK waits on the sink is a turn of the sink. -/
theorem step_of_sinkWait {s : State} {acc : Nat} (hrun : running 1 s) (hm : s.txn = .sinkWait acc) :
    step s = waitOnSink acc s.passMoment := by
  rw [step_of_running hrun]
  simp only [exchange, fetch, State.passMoment_txn, hm]

/-- Settles O45: every new response is well formed, and an OK response holds what its operation's end puts in it. -/
theorem newResponsesHaveDefinedFields : Obligations.NewResponsesHaveDefinedFields := by
  unfold Obligations.NewResponsesHaveDefinedFields
  refine ⟨fun s t r h hr hnew => Response.wellFormed_defines (step_new_resp_wellFormed h hr hnew),
    fun s t r hr hok => ⟨?_, ?_, ?_, ?_, ?_, ?_⟩⟩
  · exact fun _ _ h => execHdrPack_ok_resp h hr hok
  · exact fun _ h => execHdrUnpack_ok_resp h hr hok
  · intro k x h
    obtain ⟨_, -, hser⟩ := execPack_next h
    exact routeToSerializer_ok_resp hser (.inr rfl) hr hok
  · exact fun _ h => execUnpack_ok_resp h hr hok
  · intro p hp u h hidle
    rw [exec_row hp] at h
    obtain ⟨input, hm, hparse⟩ | ⟨x, hm, hser⟩ := dispatchEntry_next h
    · refine ⟨fun _ _ => routeToParser_ok_resp hparse hr hok, fun x' hm' => ?_⟩
      cases hm.symm.trans hm'
    · refine ⟨fun input' hm' => ?_, fun _ _ => routeToSerializer_ok_resp hser (.inl hidle) hr hok⟩
      cases hm.symm.trans hm'
  · intro acc hrun hm h hidle
    obtain ⟨_, -, hturn⟩ := waitOnSink_next ((step_of_sinkWait hrun hm).symm.trans h)
    exact sinkTurn_ok_resp hturn (.inl hidle) hr hok

end Sys2Proof.Machine

/-! No leftover of a transaction reaches the next one, and what a reset leaves. -/

namespace Sys2Proof.Machine

open Sys2Proof.Claims

/-! ### Nothing survives a transaction -/

/-- `t` and `v` show the same answer: response, place, transient registers and the bytes their sinks have taken since they
held `sink` and `sink'`. -/
structure SameAnswer (sink sink' : List Byte) (t v : State) : Prop where
  resp : v.resp = t.resp
  txn  : v.txn = t.txn
  hdr  : v.hdr = t.hdr
  cur  : v.cur = t.cur
  buf  : v.buf = t.buf
  sink : ∃ taken, t.sink = sink ++ taken ∧ v.sink = sink' ++ taken

/-- Where the outcome `o` is a next state, the outcome `o'` is one that shows the same answer. -/
def AnswersAlike (sink sink' : List Byte) (o o' : Host.Outcome State Fault Refusal) : Prop :=
  ∀ t, o = .next t → ∃ v, o' = .next v ∧ SameAnswer sink sink' t v

section

variable {sink sink' : List Byte}

theorem AnswersAlike.of_next {t v : State} (h : SameAnswer sink sink' t v) :
    AnswersAlike sink sink' (.next t) (.next v) := by
  intro t' ht
  cases ht
  exact ⟨v, rfl, h⟩

theorem AnswersAlike.of_refused {r : Refusal} {o' : Host.Outcome State Fault Refusal} :
    AnswersAlike sink sink' (.refused r) o' :=
  fun _ h => by cases h

end

/-- A response shows nothing of the state it ends. -/
theorem AnswersAlike.of_respond (s u : State) (r : Response) :
    AnswersAlike s.sink u.sink (.next (s.respond r)) (.next (u.respond r)) :=
  .of_next ⟨rfl, rfl, rfl, rfl, rfl, [], by simp, by simp⟩

/-- A turn of the sink reads of the state its transient registers and the sink's turns only. -/
theorem sinkTurn_alike {s u : State} (hhdr : u.hdr = s.hdr) (hcur : u.cur = s.cur) (hbuf : u.buf = s.buf)
    (hresp : u.resp = s.resp) (hturns : u.sinkTurns = s.sinkTurns) (p : List Byte) (acc : Nat) :
    AnswersAlike s.sink u.sink (sinkTurn p acc s) (sinkTurn p acc u) := by
  have hold : ∀ bytes rest acc', AnswersAlike s.sink u.sink (.next ((s.drawSink bytes rest).holdAt (.sinkWait acc')))
      (.next ((u.drawSink bytes rest).holdAt (.sinkWait acc'))) :=
    fun bytes _ _ => .of_next ⟨hresp, rfl, hhdr, hcur, hbuf, bytes, rfl, rfl⟩
  have hend : ∀ bytes rest r, AnswersAlike s.sink u.sink (.next ((s.drawSink bytes rest).respond r))
      (.next ((u.drawSink bytes rest).respond r)) :=
    fun bytes _ _ => .of_next ⟨rfl, rfl, rfl, rfl, rfl, bytes, rfl, rfl⟩
  unfold sinkTurn
  rw [hturns]
  split
  · exact .of_next ⟨hresp, rfl, hhdr, hcur, hbuf, [], by simp, by simp⟩
  · split
    · exact hold _ _ _
    · exact .of_refused
  · exact hold _ _ _
  · exact hend _ _ _
  · split
    · exact hend _ _ _
    · exact .of_refused
  · split
    · exact hend _ _ _
    · split <;> exact .of_refused
  · exact .of_next ⟨rfl, rfl, rfl, rfl, rfl, [], rfl, rfl⟩

theorem routeToParser_alike {s u : State} (hdraws : u.parseDraws = s.parseDraws) (hrace : u.inputRace = s.inputRace)
    (k : Kind) (input : List Byte) : AnswersAlike s.sink u.sink (routeToParser k input s) (routeToParser k input u) := by
  unfold routeToParser
  rw [hdraws, hrace]
  simp only
  split
  · split
    · exact .of_respond _ _ _
    · exact .of_refused
  · split
    · exact .of_respond _ _ _
    · exact .of_refused

theorem routeToSerializer_alike {s u : State} (hreg : u.registry = s.registry) (hlen : u.lenOverflow = s.lenOverflow)
    (hdraws : u.serDraws = s.serDraws) (hturns : u.sinkTurns = s.sinkTurns) (hcur : u.cur = s.cur)
    (hresp : u.resp = s.resp) (k : Kind) (x : Payload) :
    AnswersAlike s.sink u.sink (routeToSerializer k x s) (routeToSerializer k x u) := by
  rw [routeToSerializer_eq, routeToSerializer_eq, hdraws, hlen, hreg]
  split
  · exact .of_respond _ _ _
  · rename_i body _
    split
    · exact .of_respond _ _ _
    · have hhdr : (atSink u k x body 0).hdr = (atSink s k x body 0).hdr := by simp only [atSink, hreg]
      exact sinkTurn_alike (s := atSink s k x body 0) (u := atSink u k x body 0) hhdr hcur rfl hresp hturns _ 0

/-- Settles O47: each operation begins by discarding what was there, and its answer reads only what the two states share. -/
theorem nothingSurvivesTransaction : Obligations.NothingSurvivesTransaction := by
  unfold Obligations.NothingSurvivesTransaction
  intro r s u t hreg hlen hser hparse hturns hrace h
  suffices halike : AnswersAlike s.sink u.sink (exec (decodeRequest r) s) (exec (decodeRequest r) u) by
    obtain ⟨v, hv, hresp, htxn, hhdr, hcur, hbuf, hsink⟩ := halike t h
    exact ⟨v, hv, hresp, htxn, hhdr, hcur, hbuf, hsink⟩
  obtain hop | hop | hop | hop := decodeRequest_cases r
  all_goals rw [hop]; simp only [exec]
  · rw [execHdrPack_eq, execHdrPack_eq, hlen]
    exact .of_respond _ _ _
  · obtain ⟨resp, -, heq⟩ := execHdrUnpack_cases s.inputRace r.input
    rw [heq s rfl, heq u hrace]
    exact .of_respond _ _ _
  · unfold execPack
    split
    · exact .of_refused
    · exact routeToSerializer_alike (s := s.begin) (u := u.begin) hreg hlen hser hturns rfl rfl _ _
  · obtain ⟨resp, -, heq⟩ | ⟨k, hdr, heq⟩ := execUnpack_cases s.registry s.inputRace r.input
    · rw [heq s rfl rfl, heq u hreg hrace]
      exact .of_respond _ _ _
    · rw [heq s rfl rfl, heq u hreg hrace]
      exact routeToParser_alike (s := { s.begin with hdr := hdr, cur := some 6 })
        (u := { u.begin with hdr := hdr, cur := some 6 }) hparse hrace k r.input

/-! ### What an exchange keeps of the ports -/

/-- `t` has the requests and the reset line of `s`, and the sink of `s` with bytes after it. -/
structure KeepsPorts (s t : State) : Prop where
  requests  : t.requests = s.requests
  resetLine : t.resetLine = s.resetLine
  sink      : s.sink <+: t.sink

theorem sinkTurn_keepsPorts {p : List Byte} {acc : Nat} {s t : State} (h : sinkTurn p acc s = .next t) :
    KeepsPorts s t := by
  obtain ⟨_, _, _, rfl, -⟩ | ⟨_, _, rfl⟩ | ⟨_, _, _, _, rfl, -⟩ | ⟨_, -, rfl⟩ := sinkTurn_cases h
  all_goals exact ⟨rfl, rfl, List.prefix_append _ _⟩

theorem routeToParser_keepsPorts {k : Kind} {input : List Byte} {s t : State}
    (h : routeToParser k input s = .next t) : KeepsPorts s t := by
  obtain ⟨_, _, _, rfl⟩ | ⟨_, _, _, rfl⟩ := routeToParser_cases h
  all_goals exact ⟨rfl, rfl, List.prefix_rfl⟩

theorem routeToSerializer_keepsPorts {k : Kind} {x : Payload} {s t : State}
    (h : routeToSerializer k x s = .next t) : KeepsPorts s t := by
  rw [routeToSerializer_eq] at h
  split at h
  · cases h
    exact ⟨rfl, rfl, List.prefix_rfl⟩
  · split at h
    · cases h
      exact ⟨rfl, rfl, List.prefix_rfl⟩
    · obtain ⟨hreq, hline, hsink⟩ := sinkTurn_keepsPorts h
      exact ⟨hreq, hline, hsink⟩

theorem exec_keepsPorts {i : Instr} {s t : State} (h : exec i s = .next t) : KeepsPorts s t := by
  obtain ⟨_, rfl⟩ | ⟨_, _, _, _, _, _, hparse⟩ | ⟨_, _, _, _, _, _, hser⟩ := exec_next h
  · exact ⟨rfl, rfl, List.prefix_rfl⟩
  · obtain ⟨hreq, hline, hsink⟩ := routeToParser_keepsPorts hparse
    exact ⟨hreq, hline, hsink⟩
  · obtain ⟨hreq, hline, hsink⟩ := routeToSerializer_keepsPorts hser
    exact ⟨hreq, hline, hsink⟩

/-- An exchange keeps the ports, but for the request an idle instance accepts. -/
theorem exchange_keepsPorts {s t : State} (h : exchange s = .next t) :
    KeepsPorts s t ∨ ∃ r rest, s.txn = .idle ∧ s.requests = r :: rest ∧ KeepsPorts (s.accept r rest) t := by
  obtain ⟨i, s1, hf, hexec⟩ | hanswer := exchange_next h
  · obtain ⟨r, rest, hm, hr, -, rfl⟩ | ⟨-, rfl, -⟩ := fetch_run_cases hf
    · exact .inr ⟨r, rest, hm, hr, exec_keepsPorts hexec⟩
    · exact .inl (exec_keepsPorts hexec)
  · obtain ⟨-, -, rfl⟩ | ⟨_, _, -, rfl⟩ | ⟨_, _, -, -, hturn⟩ := fetch_answer_next hanswer
    · exact .inl ⟨rfl, rfl, List.prefix_rfl⟩
    · exact .inl ⟨rfl, rfl, List.prefix_rfl⟩
    · exact .inl (sinkTurn_keepsPorts hturn)

/-- A turn of the sink in which no foreign bytes land takes the packet's next bytes, of any number (R35, R38). -/
theorem sinkTurn_takes_prefix {p : List Byte} {acc : Nat} {s t : State} (h : sinkTurn p acc s = .next t)
    (hacc : acc ≤ p.length) (hforeign : ∀ bytes ws, s.sinkTurns ≠ .foreign bytes :: ws) :
    ∃ j, j ≤ p.length ∧ t.sink = s.sink ++ (p.take j).drop acc := by
  have hall : ∃ j, j ≤ p.length ∧ s.sink ++ p.drop acc = s.sink ++ (p.take j).drop acc :=
    ⟨p.length, le_rfl, by rw [List.take_length]⟩
  have hnone : ∃ j, j ≤ p.length ∧ s.sink = s.sink ++ (p.take j).drop acc := ⟨acc, hacc, by simp⟩
  unfold sinkTurn at h
  split at h
  · cases h
    exact hnone
  · split at h
    · rename_i d _ _ hd
      cases h
      exact ⟨acc + d, hd, by simp [List.drop_take]⟩
    · cases h
  · rename_i hw
    exact absurd hw (hforeign _ _)
  · cases h
    exact hall
  · split at h
    · rename_i k e _ _ hk
      obtain ⟨-, hle⟩ := hk
      cases h
      exact ⟨k, hle, by simp [List.drop_take]⟩
    · cases h
  · split at h
    · cases h
      exact hall
    · split at h <;> cases h
  · cases h
    simpa using hnone

/-! ### What a reset leaves -/

/-- What a step in which a reset lands keeps: the reset line goes on, the sink only grows, and of the requests at most the
one an idle instance has just accepted is gone. -/
theorem step_reset_keeps {s t : State} (hm : s.moment ≠ .low) (h : step s = .next t) :
    t.resetLine = s.resetLine.tail ∧ s.sink <+: t.sink ∧
    (t.requests = s.requests ∨ s.txn = .idle ∧ s.moment ≠ .before ∧ ∃ r, s.requests = r :: t.requests) := by
  obtain ⟨-, ⟨hl, -⟩ | ⟨-, rfl⟩ | ⟨ha, r, rest, hi, hr, rfl⟩ | ⟨ha, u, hex, rfl⟩⟩ := step_cases h
  · exact absurd hl hm
  · exact ⟨rfl, List.prefix_rfl, .inl rfl⟩
  · exact ⟨rfl, List.prefix_rfl, .inr ⟨hi, by simp [ha], r, hr⟩⟩
  · obtain ⟨hreq, hline, hsink⟩ | ⟨r, rest, hi, hr, hreq, hline, hsink⟩ := exchange_keepsPorts hex
    · exact ⟨hline, hsink, .inl hreq⟩
    · exact ⟨hline, hsink, .inr ⟨hi, by simp [ha], r, by simpa [hreq] using hr⟩⟩

/-- Of the packet of a PACK that waits on the sink, a step in which a reset lands lets the sink take the next bytes,
of any number (R103). -/
theorem step_reset_sink_prefix {s t : State} (hm : s.moment ≠ .low) (h : step s = .next t) {p : List Byte} {acc : Nat}
    (hw : waitingOnSink s p acc) (hforeign : ∀ bytes ws, s.sinkTurns ≠ .foreign bytes :: ws) :
    ∃ j, j ≤ p.length ∧ t.sink = s.sink ++ (p.take j).drop acc := by
  obtain ⟨htxn, hp, hacc⟩ := hw
  obtain ⟨-, ⟨hl, -⟩ | ⟨-, rfl⟩ | ⟨-, r, rest, hi, -, -⟩ | ⟨-, u, hex, rfl⟩⟩ := step_cases h
  · exact absurd hl hm
  · exact ⟨acc, hacc, by simp⟩
  · cases htxn.symm.trans hi
  · have hturn : sinkTurn p acc s.passMoment = .next u := by
      simp only [exchange, fetch, State.passMoment_txn, htxn] at hex
      obtain ⟨p', hp', hturn⟩ := waitOnSink_next hex
      cases hp.symm.trans hp'
      exact hturn
    have htaken := sinkTurn_takes_prefix hturn hacc hforeign
    exact htaken

/-- Settles O56: the instance is idle with nothing held, and the rest is what a reset keeps. -/
theorem resetLeavesNoResponse : Obligations.ResetLeavesNoResponse := by
  unfold Obligations.ResetLeavesNoResponse
  intro s t m ms hline hm h
  have hmoment : s.moment = m := State.moment_of_cons s hline
  have hlow : s.moment ≠ .low := by rwa [hmoment]
  obtain ⟨htxn, hresp, hhdr, hcur, hbuf, hrace, hslot⟩ := step_reset_leaves_idle hlow h
  obtain ⟨hreg, hlen⟩ := step_keepsParameters h
  obtain ⟨htail, hsink, hreq⟩ := step_reset_keeps hlow h
  rw [hline] at htail
  rw [hmoment] at hreq
  exact ⟨htxn, hresp, hhdr, hcur, hbuf, hrace, hslot, hreg, hlen, htail, hsink, hreq,
    fun _ _ hw hforeign => step_reset_sink_prefix hlow h hw hforeign⟩

/-! ### The step, the refusals and the response port -/

/-- The exchange of an idle instance with a request on its port accepts the request and runs its operation (R23, R95). -/
theorem exchange_of_request {s : State} {r : Issue} {rest : List Issue} (hidle : s.txn = .idle)
    (hreq : s.requests = r :: rest) : exchange s = exec (decodeRequest r.request) (s.accept r rest) := by
  simp only [exchange, fetch, fetchRequest, hidle, hreq]

/-- Settles O7: with no reset in it, the step of an idle instance is the exchange that runs the request on its port. -/
theorem stepRunsPortRequest : Obligations.StepRunsPortRequest := by
  unfold Obligations.StepRunsPortRequest
  intro s r rest i hrun hidle hreq hdec _
  have hi : decodeRequest r.request = i := Except.ok.inj hdec
  rw [step_of_running hrun, exchange_of_request (s := s.passMoment) hidle hreq, hi, passed_one]
  rfl

theorem step_of_not_injective {s : State} (h : s.registry.injective = false) :
    step s = .refused .registryNotInjective := by
  simp [step, takeStep, h]

/-- Settles O9: a reserved tag names no kind, two entries of one identifier are no injective registry, and a run stops at the
refusal of its first step. -/
theorem refusalsAndTheirMark : Obligations.RefusalsAndTheirMark := by
  unfold Obligations.RefusalsAndTheirMark
  refine ⟨fun s k x hk => ?_, fun s k j hne hsame => ?_, fun s r n h => runSteps_succ_of_refused h n⟩
  · have hnone : Kind.ofTag k = none := (Kind.ofTag_eq_none_iff k).mpr hk
    simp only [exec, execPack, hnone]
  · refine step_of_not_injective (Bool.eq_false_iff.mpr fun hinj => ?_)
    exact (Registry.injective_iff s.registry).mp hinj k j hne hsame

/-- Settles O12, by evaluation: the reset state and the constants are closed terms. -/
theorem resetLeavesInstanceIdle : Obligations.ResetLeavesInstanceIdle := by
  unfold Obligations.ResetLeavesInstanceIdle
  decide

theorem present_reads {α : Type} (f : RespField) (field : Option α) :
    (field = none → present f field = .error (.responseFieldAbsent f)) ∧
    ∀ a, field = some a → present f field = .ok a := by
  cases field <;> simp [present]

/-- Settles O52: with no response no field is present, and with one each read presents its field. -/
theorem absentResponseFieldsFault : Obligations.AbsentResponseFieldsFault := by
  unfold Obligations.AbsentResponseFieldsFault
  refine ⟨fun s hs => ?_, fun s r hs => ?_⟩
  all_goals
    unfold readStatus readCount readErr readHdr readService readTotalLen readKind readInst
    rw [hs]
  · exact ⟨rfl, rfl, rfl, rfl, rfl, rfl, rfl, rfl⟩
  · obtain ⟨herr, herr'⟩ := present_reads .err r.err
    obtain ⟨hhdr, hhdr'⟩ := present_reads .hdr r.hdr
    obtain ⟨hservice, hservice'⟩ := present_reads .service r.service
    obtain ⟨htotal, htotal'⟩ := present_reads .totalLen r.totalLen
    obtain ⟨hkind, hkind'⟩ := present_reads .kind r.kind
    obtain ⟨hinst, hinst'⟩ := present_reads .inst r.inst
    exact ⟨rfl, rfl, herr, herr', hhdr, hhdr', hservice, hservice', htotal, htotal', hkind, hkind', hinst, hinst'⟩

end Sys2Proof.Machine

/-! What the reads of an input return, and the byte order of the 16-bit fields. -/

namespace Sys2Proof.Machine

/-! ### Reads under interference -/

/-- The byte an offset reads as: the one the race lists for it, else the requester's (R105). -/
theorem getElem?_seenInput (race : List (Option Byte)) (input : List Byte) (a : Nat) :
    (seenInput race input)[a]? = input[a]?.map (race[a]?.join.getD ·) := by
  induction input generalizing race a with
  | nil => simp [seenInput]
  | cons b bs ih =>
    match race with
    | [] => simp
    | none :: rs => cases a with
      | zero => simp [seenInput]
      | succ a => simpa [seenInput] using ih rs a
    | some c :: rs => cases a with
      | zero => simp [seenInput]
      | succ a => simpa [seenInput] using ih rs a

/-- Where the race lists no changed byte for the offset, the requester's byte is read. -/
theorem getElem?_seenInput_of_unchanged {race : List (Option Byte)} {a : Nat}
    (h : ∀ b, race[a]? ≠ some (some b)) (input : List Byte) : (seenInput race input)[a]? = input[a]? := by
  have hold : race[a]?.join = none :=
    Option.eq_none_iff_forall_ne_some.mpr fun b hb => h b (Option.join_eq_some_iff.mp hb)
  simp only [getElem?_seenInput, hold, Option.getD_none, Option.map_id']

/-- Where the race lists a changed byte for an offset of the input, that byte is read. -/
theorem getElem?_seenInput_of_changed {race : List (Option Byte)} {input : List Byte} {a : Nat} {b : Byte}
    (ha : a < input.length) (h : race[a]? = some (some b)) : (seenInput race input)[a]? = some b := by
  rw [getElem?_seenInput, h, List.getElem?_eq_getElem ha]
  rfl

/-- Settles O48: each offset reads as its listed change or, where there is none, as the requester's byte. -/
theorem readsReturnOldOrNewByte : Obligations.ReadsReturnOldOrNewByte := by
  unfold Obligations.ReadsReturnOldOrNewByte
  refine fun race input => ⟨seenInput_length race input, fun a b hread => ?_,
    fun a b ha hrace => getElem?_seenInput_of_changed ha hrace,
    fun hstable => List.ext_getElem? fun a => getElem?_seenInput_of_unchanged (hstable a) input⟩
  rw [getElem?_seenInput, Option.map_eq_some_iff] at hread
  obtain ⟨c, hc, rfl⟩ := hread
  cases hrace : race[a]?.join with
  | none => exact .inl hc
  | some d => exact .inr (Option.join_eq_some_iff.mp hrace)

/-! ### Byte order -/

/-- The byte at the lower offset is the more significant (R30). -/
theorem be16_eq_shift_or (h l : Byte) : be16 h l = (h.setWidth 16 <<< 8) ||| l.setWidth 16 := by
  apply BitVec.eq_of_getLsbD_eq
  intro i hi
  simp only [be16, BitVec.getLsbD_append, BitVec.getLsbD_or, BitVec.getLsbD_shiftLeft, BitVec.getLsbD_setWidth]
  by_cases hlow : i < 8
  · simp [hlow, hi]
  · simp [hlow, hi, BitVec.getLsbD_of_ge l i (by omega)]
    omega

theorem memRead16_of_present {input : List Byte} {a : Nat} {h l : Byte} (hh : input[a]? = some h)
    (hl : input[a + 1]? = some l) : memRead16 input a = some (be16 h l) := by
  simp [memRead16, hh, hl]

/-- Settles O6: a 16-bit read joins its two bytes high byte first, and a header is packed the same way round. -/
theorem fieldsAreBigEndian : Obligations.FieldsAreBigEndian := by
  unfold Obligations.FieldsAreBigEndian
  refine ⟨fun _ _ => rfl, fun input a h l hh hl => ?_, fun _ => rfl⟩
  rw [memRead16_of_present hh hl, be16_eq_shift_or]

end Sys2Proof.Machine

/-! The turns of the sink, one equation each, and what PACK makes of them, from its request or its dispatch entry on. -/

namespace Sys2Proof.Machine

open Sys2Proof.Claims

/-! ### The turns of the sink -/

section SinkTurns

variable {s : State} {p : List Byte} {acc : Nat} {ws : List SinkTurn}

theorem sinkTurn_of_none (h : s.sinkTurns = []) : sinkTurn p acc s = .next (s.holdAt (.sinkWait acc)) := by
  simp only [sinkTurn, h]

theorem sinkTurn_of_taking {d : Nat} (h : s.sinkTurns = .taking d :: ws) (hd : acc + d ≤ p.length) :
    sinkTurn p acc s = .next ((s.drawSink ((p.drop acc).take d) ws).holdAt (.sinkWait (acc + d))) := by
  simp only [sinkTurn, h]
  exact if_pos hd

theorem sinkTurn_of_foreign {bytes : List Byte} (h : s.sinkTurns = .foreign bytes :: ws) :
    sinkTurn p acc s = .next ((s.drawSink bytes ws).holdAt (.sinkWait acc)) := by
  simp only [sinkTurn, h]

/-- The sink accepts, or reports the whole packet and no error (log entry 3): it has the rest of the packet. -/
theorem sinkTurn_of_acceptance (h : s.sinkTurns = .accept :: ws ∨ s.sinkTurns = .wrote p.length :: ws) :
    sinkTurn p acc s = .next ((s.drawSink (p.drop acc) ws).respond (plain 0 p.length)) := by
  obtain h | h := h
  · simp only [sinkTurn, h]
    rfl
  · simp only [sinkTurn, h]
    exact if_pos trivial

/-- The sink fails after `j` bytes in all: it has the packet up to byte `j` (R35). -/
theorem sinkTurn_of_fail {j : Nat} {e : ErrVal} (h : s.sinkTurns = .fail j e :: ws) (hacc : acc ≤ j)
    (hj : j ≤ p.length) :
    sinkTurn p acc s = .next ((s.drawSink ((p.take j).drop acc) ws).respond (forwarding 7 j e)) := by
  simp only [sinkTurn, h, List.drop_take]
  exact if_pos ⟨hacc, hj⟩

theorem sinkTurn_of_taking_beyond {d : Nat} (h : s.sinkTurns = .taking d :: ws) (hd : p.length < acc + d) :
    sinkTurn p acc s = .refused .sinkOverrun := by
  simp only [sinkTurn, h]
  exact if_neg (by omega)

theorem sinkTurn_of_fail_outside {k : Nat} {e : ErrVal} (h : s.sinkTurns = .fail k e :: ws)
    (hk : k < acc ∨ p.length < k) : sinkTurn p acc s = .refused .sinkOverrun := by
  simp only [sinkTurn, h]
  exact if_neg (by omega)

theorem sinkTurn_of_wrote_outside {k : Nat} (h : s.sinkTurns = .wrote k :: ws) (hacc : acc ≤ p.length)
    (hk : k < acc ∨ p.length < k) : sinkTurn p acc s = .refused .sinkOverrun := by
  simp only [sinkTurn, h]
  rw [if_neg (by omega), if_neg (by omega)]

theorem sinkTurn_of_short_write {k : Nat} (h : s.sinkTurns = .wrote k :: ws) (hacc : acc ≤ k) (hk : k < p.length) :
    sinkTurn p acc s = .refused .sinkShortWrite := by
  simp only [sinkTurn, h]
  rw [if_neg (by omega), if_pos ⟨hacc, hk⟩]

/-- A turn that ends PACK with a response counts the bytes of the packet the sink has taken in all (R80). -/
theorem sinkTurn_counts {t : State} {r : Response} (h : sinkTurn p acc s = .next t) (hacc : acc ≤ p.length)
    (hidle : t.txn = .idle) (hr : t.resp = some r) :
    acc ≤ r.n ∧ r.n ≤ p.length ∧ t.sink = s.sink ++ (p.take r.n).drop acc := by
  unfold sinkTurn at h
  split at h
  · cases h
    cases hidle
  · split at h
    · cases h
      cases hidle
    · cases h
  · cases h
    cases hidle
  · cases h
    cases hr
    exact ⟨hacc, le_rfl, by simp [Response.okPack, Response.bare]⟩
  · split at h
    · rename_i hk
      obtain ⟨hlow, hhigh⟩ := hk
      cases h
      cases hr
      exact ⟨hlow, hhigh, by simp [Response.bare, List.drop_take]⟩
    · cases h
  · split at h
    · cases h
      cases hr
      exact ⟨hacc, le_rfl, by simp [Response.okPack, Response.bare]⟩
    · split at h <;> cases h
  · cases h
    cases hr

end SinkTurns

/-! ### PACK up to the sink -/

/-- The negation of R53's condition for LEN_OVERFLOW. -/
theorem lengthTaken_iff (s : State) (n : Nat) : lengthTaken s n ↔ ¬ (65529 < n ∧ s.lenOverflow = .refuse) := by
  unfold lengthTaken
  cases s.lenOverflow <;> simp

section Serializer

variable {k : Kind} {x : Payload} {s : State} {body : List Byte}

theorem routeToSerializer_of_err {e : ErrVal} (h : s.serDraws.head = .err e) :
    routeToSerializer k x s =
      .next ((s.drawSer.logCall (.serialize k x)).respond (Response.bare .serialize 0 (some e))) := by
  rw [routeToSerializer_eq, h]

theorem routeToSerializer_of_overflow (h : s.serDraws.head = .ok body) (hlen : 65529 < body.length)
    (hrefuse : s.lenOverflow = .refuse) :
    routeToSerializer k x s =
      .next ((s.drawSer.logCall (.serialize k x)).respond (Response.bare .lenOverflow 0 none)) := by
  rw [routeToSerializer_eq, h]
  exact if_pos ⟨hlen, hrefuse⟩

/-- A body that is serialized and taken stands with its header at the sink, which takes its first turn (R75). -/
theorem routeToSerializer_of_taken (h : s.serDraws.head = .ok body) (hlen : lengthTaken s body.length) :
    routeToSerializer k x s = sinkTurn (packetOf s.registry k body) 0 (atSink s k x body 0) := by
  rw [routeToSerializer_eq, h]
  exact if_neg ((lengthTaken_iff s _).mp hlen)

/-- The PACK side of an entry has ended before the sink with a count of 0, or offered the packet of a taken body. -/
theorem routeToSerializer_next {t : State} (h : routeToSerializer k x s = .next t) :
    (t.sink = s.sink ∧ ∃ r, t.resp = some r ∧ r.n = 0) ∨
    ∃ body, s.serDraws.head = .ok body ∧ lengthTaken s body.length ∧
      sinkTurn (packetOf s.registry k body) 0 (atSink s k x body 0) = .next t := by
  cases hd : s.serDraws.head with
  | err e =>
    cases (routeToSerializer_of_err hd).symm.trans h
    exact .inl ⟨rfl, _, rfl, rfl⟩
  | ok body =>
    by_cases hlen : lengthTaken s body.length
    · exact .inr ⟨body, rfl, hlen, (routeToSerializer_of_taken hd hlen).symm.trans h⟩
    · obtain ⟨hlong, hrefuse⟩ := not_not.mp (mt (lengthTaken_iff s _).mpr hlen)
      cases (routeToSerializer_of_overflow hd hlong hrefuse).symm.trans h
      exact .inl ⟨rfl, _, rfl, rfl⟩

/-- Only a body that was serialized and taken puts a byte on the sink (R79). -/
theorem body_taken_of_sink_ne {t : State} (h : routeToSerializer k x s = .next t) (hsink : t.sink ≠ s.sink) :
    ∃ body, s.serDraws.head = .ok body ∧ lengthTaken s body.length := by
  obtain ⟨hsame, -⟩ | ⟨body, hd, hlen, -⟩ := routeToSerializer_next h
  · exact absurd hsame hsink
  · exact ⟨body, hd, hlen⟩

/-- When the PACK side of an entry has ended with a response, the sink has taken as many bytes as it counts, and they are
the first of the packet (R80). -/
theorem routeToSerializer_counts {t : State} {r : Response} (h : routeToSerializer k x s = .next t)
    (hidle : t.txn = .idle) (hr : t.resp = some r) :
    ∃ taken, t.sink = s.sink ++ taken ∧ taken.length = r.n ∧
      ∀ body, s.serDraws.head = .ok body → taken <+: packetOf s.registry k body := by
  obtain ⟨hsink, r', hr', hn⟩ | ⟨body, hd, -, hturn⟩ := routeToSerializer_next h
  · cases hr.symm.trans hr'
    exact ⟨[], by simpa using hsink, hn.symm, fun _ _ => List.nil_prefix⟩
  · obtain ⟨-, hle, hsink⟩ := sinkTurn_counts hturn (Nat.zero_le _) hidle hr
    refine ⟨(packetOf s.registry k body).take r.n, hsink, List.length_take_of_le hle, fun body' hd' => ?_⟩
    cases hd.symm.trans hd'
    exact List.take_prefix _ _

theorem execPack_tag : exec (.pack k.tag x) s = routeToSerializer k x s.begin := by
  simp only [exec, execPack, Kind.ofTag_tag]

theorem execPack_of_taken (h : s.serDraws.head = .ok body) (hlen : lengthTaken s body.length) :
    exec (.pack k.tag x) s = sinkTurn (packetOf s.registry k body) 0 (atSink s.begin k x body 0) := by
  rw [execPack_tag]
  exact routeToSerializer_of_taken (s := s.begin) h hlen

theorem exec_row_of_packAtMux {p : (Half → Instr) × Kind} (hp : p ∈ rows) (u : Half) (hm : s.txn = .packAtMux p.2 x) :
    exec (p.1 u) s = routeToSerializer p.2 x s := by
  rw [exec_row hp]
  simp only [dispatchEntry, hm]
  exact if_pos trivial

end Serializer

/-- Settles O31: the packet of a taken body stands at the sink, whose first turn takes all of it. -/
theorem packEmitsPacket : Obligations.PackEmitsPacket := by
  unfold Obligations.PackEmitsPacket
  intro s k x body ws hd hlen hturns
  rw [← packetOf_length s.registry k body] at hturns ⊢
  rw [execPack_of_taken hd hlen]
  exact sinkTurn_of_acceptance (s := atSink s.begin k x body 0) hturns

/-- Settles O35: of the ends of PACK only those at the sink change it, and there the body was taken. -/
theorem noSinkByteBeforePacket : Obligations.NoSinkByteBeforePacket := by
  unfold Obligations.NoSinkByteBeforePacket
  intro s t x hsink hexec
  obtain ⟨tag, h⟩ | ⟨p, hp, u, hm, h⟩ := hexec
  · obtain ⟨k, -, hser⟩ := execPack_next h
    have htaken := body_taken_of_sink_ne hser hsink
    exact htaken
  · exact body_taken_of_sink_ne ((exec_row_of_packAtMux hp u hm).symm.trans h) hsink

/-- Settles O36: the count is right from the serializer's entry on, where both forms of PACK pass. -/
theorem packCountsSinkBytes : Obligations.PackCountsSinkBytes := by
  unfold Obligations.PackCountsSinkBytes
  intro s t k x r hexec hidle hr
  obtain h | ⟨p, hp, u, rfl, hm, h⟩ := hexec
  · have hcounts := routeToSerializer_counts (execPack_tag.symm.trans h) hidle hr
    exact hcounts
  · exact routeToSerializer_counts ((exec_row_of_packAtMux hp u hm).symm.trans h) hidle hr

/-! ### A PACK that waits -/

section Waiting

variable {s : State} {p : List Byte} {acc : Nat}

theorem State.holdAt_eq_self {t : Txn} (h : s.txn = t) : s.holdAt t = s := by
  subst h
  rfl

theorem running_succ_iff (n : Nat) (s : State) : running (n + 1) s ↔ running 1 s ∧ running n (passed 1 s) := by
  unfold running passed
  cases s.resetLine with
  | nil => simp
  | cons m ms => simp; tauto

theorem passed_succ (n : Nat) (s : State) : passed (n + 1) s = passed n (passed 1 s) := by
  simp [passed, Nat.add_comm n 1]

/-- The step of a running PACK that waits is the sink's turn at its packet. -/
theorem step_of_waiting (hrun : running 1 s) (hw : waitingOnSink s p acc) : step s = sinkTurn p acc (passed 1 s) := by
  obtain ⟨hm, hp, -⟩ := hw
  have hp' : readPacket s.passMoment = .ok p := hp
  rw [step_of_sinkWait hrun hm, passed_one]
  simp only [waitOnSink, hp']

/-- With no turn of the sink left, a PACK that waits is stuck (R108). -/
theorem runSteps_of_stuck (n : Nat) (hrun : running n s) (hw : waitingOnSink s p acc) (hnone : s.sinkTurns = []) :
    runSteps n s = .next (passed n s) := by
  induction n generalizing s with
  | zero => rfl
  | succ n ih =>
    obtain ⟨hnow, hlater⟩ := (running_succ_iff n s).mp hrun
    have hstep : step s = .next (passed 1 s) := by
      have ⟨hm, _, _⟩ := hw
      have hwaits : (passed 1 s).holdAt (.sinkWait acc) = passed 1 s := State.holdAt_eq_self hm
      rw [step_of_waiting hnow hw, sinkTurn_of_none (s := passed 1 s) hnone, hwaits]
    calc runSteps (n + 1) s
        = runSteps n (passed 1 s) := runSteps_succ_of_next hstep n
      _ = .next (passed n (passed 1 s)) := ih hlater hw hnone
      _ = .next (passed (n + 1) s) := by rw [passed_succ n s]

/-- The packet of PACK stands whole in `H` and `BUF` while it waits (R22, R37). -/
theorem waitingOnSink_atSink (s : State) (k : Kind) (x : Payload) (body : List Byte) :
    waitingOnSink (atSink s k x body 0) (packetOf s.registry k body) 0 :=
  ⟨rfl, rfl, Nat.zero_le _⟩

/-- A PACK that waits, and whose sink takes the rest of the packet in pieces and then accepts, ends with OK and the sink has
the rest. -/
theorem runSteps_of_pieces (pieces : List Nat) {ws : List SinkTurn} (hrun : running (pieces.length + 1) s)
    (hw : waitingOnSink s p acc) (hturns : s.sinkTurns = pieces.map .taking ++ .accept :: ws)
    (hsum : acc + pieces.sum ≤ p.length) :
    runSteps (pieces.length + 1) s = .next
      { ended (passed (pieces.length + 1) s) (plain 0 p.length) with
          sink := s.sink ++ p.drop acc
          sinkTurns := ws } := by
  induction pieces generalizing s acc with
  | nil =>
    have hstep := step_of_waiting hrun hw
    rw [sinkTurn_of_acceptance (s := passed 1 s) (.inl hturns)] at hstep
    exact runSteps_succ_of_next hstep 0
  | cons d ds ih =>
    obtain ⟨hnow, hlater⟩ := (running_succ_iff _ s).mp hrun
    rw [List.sum_cons] at hsum
    have hd : acc + d ≤ p.length := by omega
    have hstep := step_of_waiting hnow hw
    rw [sinkTurn_of_taking (s := passed 1 s) hturns hd] at hstep
    obtain ⟨-, hp, -⟩ := hw
    have hrest := ih (s := ((passed 1 s).drawSink ((p.drop acc).take d) _).holdAt (.sinkWait (acc + d)))
      hlater ⟨rfl, hp, hd⟩ rfl (by omega)
    have hsink : (s.sink ++ (p.drop acc).take d) ++ p.drop (acc + d) = s.sink ++ p.drop acc := by
      rw [List.append_assoc, ← List.drop_drop, List.take_append_drop]
    rw [List.length_cons, passed_succ (ds.length + 1) s, ← hsink]
    exact (runSteps_succ_of_next hstep _).trans hrest

/-- The step that accepts a PACK whose body is taken is the one of a PACK that already waits with its whole packet: both are
the sink's first turn. -/
theorem step_pack_eq_step_waiting {r : Issue} {requests : List Issue} {k : Kind} {x : Payload} {body : List Byte}
    (hrun : running 1 s) (hidle : s.txn = .idle) (hreq : s.requests = r :: requests)
    (hop : decodeRequest r.request = .pack k.tag x) (hd : s.serDraws.head = .ok body)
    (hlen : lengthTaken s body.length) :
    step s = step (atSink (s.accept r requests).begin k x body 0) := by
  calc step s
      = exec (.pack k.tag x) (s.passMoment.accept r requests) := by
        rw [step_of_running hrun, exchange_of_request (s := s.passMoment) hidle hreq, hop]
    _ = sinkTurn (packetOf s.registry k body) 0 (atSink (s.passMoment.accept r requests).begin k x body 0) :=
        execPack_of_taken (s := s.passMoment.accept r requests) hd hlen
    _ = step (atSink (s.accept r requests).begin k x body 0) := by
        rw [step_of_waiting (s := atSink (s.accept r requests).begin k x body 0) hrun (waitingOnSink_atSink _ k x body),
          passed_one]
        rfl

end Waiting

/-- Settles O39: the step is the sink's turn, and each turn has its equation. -/
theorem waitingPackTakesSinkTurn : Obligations.WaitingPackTakesSinkTurn := by
  unfold Obligations.WaitingPackTakesSinkTurn
  intro s p acc ws hrun hw
  rw [step_of_waiting hrun hw]
  obtain ⟨hm, -, -⟩ := hw
  refine ⟨fun d h hd => sinkTurn_of_taking (s := passed 1 s) h hd, fun bytes h => ?_,
    fun h => sinkTurn_of_acceptance (s := passed 1 s) h,
    fun j e h hacc hj => sinkTurn_of_fail (s := passed 1 s) h hacc hj⟩
  have hwaits : (passed 1 s).holdAt (.sinkWait acc) = passed 1 s := State.holdAt_eq_self hm
  rw [← hwaits]
  exact sinkTurn_of_foreign (s := passed 1 s) h

/-- Settles O38: without a turn of the sink PACK stays where the packet is offered, and every step leaves it there. -/
theorem unansweringSinkLeavesPackStuck : Obligations.UnansweringSinkLeavesPackStuck := by
  unfold Obligations.UnansweringSinkLeavesPackStuck
  refine ⟨fun s k x body hd hlen hnone => ⟨?_, waitingOnSink_atSink s k x body⟩,
    fun s p acc n hrun hw hnone => runSteps_of_stuck n hrun hw hnone⟩
  rw [execPack_of_taken hd hlen]
  exact sinkTurn_of_none (s := atSink s.begin k x body 0) hnone

/-- Settles O40: the run is that of a PACK that waits with its whole packet, by induction on the pieces. -/
theorem sinkSplitDoesNotMatter : Obligations.SinkSplitDoesNotMatter := by
  unfold Obligations.SinkSplitDoesNotMatter
  intro s r requests k body pieces ws hrun hidle hreq hop hkind hd hlen hturns hsum
  have hdecode : decodeRequest r.request = .pack k.tag r.request.payload := by
    rw [← hkind]
    simp [decodeRequest, hop]
  obtain ⟨hnow, -⟩ := (running_succ_iff _ s).mp hrun
  have hfirst := step_pack_eq_step_waiting hnow hidle hreq hdecode hd hlen
  have hrest := runSteps_of_pieces (s := atSink (s.accept r requests).begin k r.request.payload body 0) pieces hrun
    (waitingOnSink_atSink _ k _ body) hturns (by simpa using hsum)
  rw [packetOf_length] at hrest
  simp only [runSteps, hfirst]
  exact hrest

/-! ### Answers outside the oracles' types -/

theorem bodySlice_length (race : List (Option Byte)) (input : List Byte) :
    (bodySlice (seenInput race input)).length = input.length - 6 := by
  simp [bodySlice, Config.hdrSize]

/-- A parser that reports more bytes than the slice holds is refused (R73). -/
theorem routeToParser_of_overrun {k : Kind} {input : List Byte} {s : State} {m : Nat} (hm : input.length - 6 < m)
    (hd : (∃ inst, s.parseDraws.head = .ok m inst) ∨ ∃ e, s.parseDraws.head = .err m e) :
    routeToParser k input s = .refused .parserOverrun := by
  have hover : ¬ m ≤ (bodySlice (seenInput s.inputRace input)).length := by
    rw [bodySlice_length]
    omega
  obtain ⟨_, hd⟩ | ⟨_, hd⟩ := hd
  all_goals
    simp only [routeToParser, hd]
    exact if_neg hover

theorem exec_row_of_unpackAtMux {p : (Half → Instr) × Kind} (hp : p ∈ rows) {s : State} {input : List Byte} {t : Half}
    (hm : s.txn = .unpackAtMux input) (hh : s.hdr = heldHeader (s.registry.serviceId p.2) t) (u : Half) :
    exec (p.1 u) s = routeToParser p.2 input s := by
  rw [exec_row hp]
  simp only [dispatchEntry, hm, hh, heldHeader, readHeader_full]
  exact if_pos (by simp [headerSelects, Config.hdrLenConst, Config.protoVerConst])

/-- UNPACK of an accepted header of some kind's identifier goes to the parser of a kind of that identifier. -/
theorem execUnpack_of_registered {s : State} {input : List Byte} {k : Kind} {b2 b3 b4 b5 : Byte} {body : List Byte}
    (hseen : seenInput s.inputRace input = 0x06 :: 0x10 :: b2 :: b3 :: b4 :: b5 :: body)
    (hsid : b2 ++ b3 = s.registry.serviceId k) :
    ∃ k', regLookup s.registry (s.registry.serviceId k) = some k' ∧ execUnpack input s =
      routeToParser k' input { s.begin with hdr := heldHeader (be16 b2 b3) (be16 b4 b5), cur := some 6 } := by
  have hsid' : be16 b2 b3 = s.registry.serviceId k := hsid
  obtain ⟨k', hk'⟩ := Option.isSome_iff_exists.mp (regLookup_isSome s.registry k)
  refine ⟨k', hk', ?_⟩
  rw [execUnpack_of_accepted hseen, hsid', hk']

/-- Settles O53: in every case named the transaction stands at the parser's entry or at a turn of the sink, which refuses. -/
theorem answersOutsideOracleRefused : Obligations.AnswersOutsideOracleRefused := by
  unfold Obligations.AnswersOutsideOracleRefused
  refine ⟨fun s input t u m p hp hm hd => ⟨fun htxn hh => ?_, fun b2 b3 b4 b5 body hseen hsid => ?_⟩,
    fun s packet acc ws o ho => ?_⟩
  · rw [exec_row_of_unpackAtMux hp htxn hh]
    exact routeToParser_of_overrun hm hd
  · obtain ⟨k, -, hk⟩ := execUnpack_of_registered hseen hsid
    exact hk.trans (routeToParser_of_overrun hm hd)
  · obtain ⟨w, hturns, hacc, rfl⟩ : ∃ w : State, w.sinkTurns = s.sinkTurns ∧ acc ≤ packet.length ∧
        o = sinkTurn packet acc w := by
      obtain ⟨hrun, hw, rfl⟩ | ⟨k, x, body, hd, hlen, rfl, rfl, rfl | ⟨p, hp, u, rfl, hm, rfl⟩⟩ := ho
      · have ⟨_, _, hacc⟩ := hw
        exact ⟨passed 1 s, rfl, hacc, step_of_waiting hrun hw⟩
      · exact ⟨atSink s.begin k x body 0, rfl, Nat.zero_le _, execPack_of_taken hd hlen⟩
      · exact ⟨atSink s p.2 x body 0, rfl, Nat.zero_le _,
          (exec_row_of_packAtMux hp u hm).trans (routeToSerializer_of_taken hd hlen)⟩
    rw [← hturns]
    exact ⟨fun k e h hk => sinkTurn_of_fail_outside h hk, fun d h hd => sinkTurn_of_taking_beyond h hd,
      fun k h hk => sinkTurn_of_wrote_outside h hacc hk, fun k h hlow hk => sinkTurn_of_short_write h hlow hk⟩

end Sys2Proof.Machine

/-! What every step keeps of the sink, when a response stands on the port, and a reset before the response. -/

namespace Sys2Proof.Machine

open Sys2Proof.Claims

/-! ### The sink is append-only -/

theorem exchange_sink_grows {s t : State} (h : exchange s = .next t) : s.sink <+: t.sink := by
  obtain ⟨-, -, hsink⟩ | ⟨r, rest, -, -, -, -, hsink⟩ := exchange_keepsPorts h
  all_goals exact hsink

/-- Settles O43: an exchange only appends to the sink, and a reset leaves it as the exchange did. -/
theorem sinkOnlyGrows : Obligations.SinkOnlyGrows := by
  unfold Obligations.SinkOnlyGrows
  intro s t h
  obtain ⟨-, ⟨-, hexch⟩ | ⟨-, rfl⟩ | ⟨-, _, _, -, -, rfl⟩ | ⟨-, _, hexch, rfl⟩⟩ := step_cases h
  · exact exchange_sink_grows (s := s.passMoment) hexch
  · exact List.prefix_rfl
  · exact List.prefix_rfl
  · have hgrows := exchange_sink_grows hexch
    exact hgrows

/-! ### A response exactly when ended -/

/-- `t` has a response exactly when it has ended, unless the first of these turns of the sink was a reset (R41, R103). -/
def RespondsExactlyWhenEnded (turns : List SinkTurn) (t : State) : Prop :=
  (t.resp ≠ none → t.txn = .idle) ∧ (t.txn = .idle → t.resp ≠ none ∨ turns.head? = some .resetHits)

theorem respond_respondsExactlyWhenEnded (turns : List SinkTurn) (s : State) (r : Response) :
    RespondsExactlyWhenEnded turns (s.respond r) :=
  ⟨fun _ => rfl, fun _ => .inl (by simp)⟩

theorem sinkTurn_respondsExactlyWhenEnded {p : List Byte} {acc : Nat} {s t : State} (hresp : s.resp = none)
    (h : sinkTurn p acc s = .next t) : RespondsExactlyWhenEnded s.sinkTurns t := by
  obtain ⟨_, _, _, rfl, -⟩ | ⟨_, _, rfl⟩ | ⟨_, _, _, _, rfl, -⟩ | ⟨_, hreset, rfl⟩ := sinkTurn_cases h
  · exact ⟨fun hne => absurd hresp hne, fun hidle => by cases hidle⟩
  · exact respond_respondsExactlyWhenEnded _ _ _
  · exact respond_respondsExactlyWhenEnded _ _ _
  · exact ⟨fun _ => rfl, fun _ => .inr (by rw [hreset]; rfl)⟩

theorem routeToParser_respondsExactlyWhenEnded {k : Kind} {input : List Byte} {s t : State}
    (h : routeToParser k input s = .next t) (turns : List SinkTurn) : RespondsExactlyWhenEnded turns t := by
  obtain ⟨_, _, _, rfl⟩ | ⟨_, _, _, rfl⟩ := routeToParser_cases h
  all_goals exact respond_respondsExactlyWhenEnded _ _ _

theorem routeToSerializer_respondsExactlyWhenEnded {k : Kind} {x : Payload} {s t : State} (hresp : s.resp = none)
    (h : routeToSerializer k x s = .next t) : RespondsExactlyWhenEnded s.sinkTurns t := by
  rw [routeToSerializer_eq] at h
  split at h
  · cases h
    exact respond_respondsExactlyWhenEnded _ _ _
  · rename_i body _
    split at h
    · cases h
      exact respond_respondsExactlyWhenEnded _ _ _
    · exact sinkTurn_respondsExactlyWhenEnded (s := atSink s k x body 0) hresp h

/-- An operation begins with no response on the port, so it has one only when it has ended. -/
theorem exec_decodeRequest_respondsExactlyWhenEnded {r : Request} {s t : State}
    (h : exec (decodeRequest r) s = .next t) : RespondsExactlyWhenEnded s.sinkTurns t := by
  obtain hop | hop | hop | hop := decodeRequest_cases r
  all_goals rw [hop] at h
  · obtain ⟨_, rfl⟩ := execHdrPack_next h
    exact respond_respondsExactlyWhenEnded _ _ _
  · obtain ⟨_, rfl⟩ := execHdrUnpack_next h
    exact respond_respondsExactlyWhenEnded _ _ _
  · obtain ⟨_, -, hser⟩ := execPack_next h
    exact routeToSerializer_respondsExactlyWhenEnded (s := s.begin) rfl hser
  · obtain ⟨_, rfl⟩ | ⟨_, _, hparse⟩ := execUnpack_next h
    · exact respond_respondsExactlyWhenEnded _ _ _
    · exact routeToParser_respondsExactlyWhenEnded hparse _

theorem dispatchEntry_respondsExactlyWhenEnded {k : Kind} {s t : State} (hs : s.consistent = true)
    (h : dispatchEntry k s = .next t) : RespondsExactlyWhenEnded s.sinkTurns t := by
  obtain ⟨_, -, hparse⟩ | ⟨x, hm, hser⟩ := dispatchEntry_next h
  · exact routeToParser_respondsExactlyWhenEnded hparse _
  · obtain ⟨-, hresp⟩ := consistent_packAtMux hm hs
    exact routeToSerializer_respondsExactlyWhenEnded hresp hser

/-- An exchange that accepts a request, or goes on with a consistent transaction, answers exactly when it ends. -/
theorem exchange_respondsExactlyWhenEnded {s t : State} (h : exchange s = .next t)
    (hs : s.txn = .idle ∧ s.requests ≠ [] ∨ s.txn ≠ .idle ∧ s.consistent = true) :
    RespondsExactlyWhenEnded s.sinkTurns t := by
  obtain ⟨i, s1, hfetch, hexec⟩ | hanswer := exchange_next h
  · obtain ⟨r, rest, -, -, rfl, rfl⟩ | ⟨hbusy, rfl, k, u, rfl⟩ := fetch_run_cases hfetch
    · have hends := exec_decodeRequest_respondsExactlyWhenEnded hexec
      exact hends
    · obtain ⟨hidle, -⟩ | ⟨-, hcons⟩ := hs
      · exact absurd hidle hbusy
      · rw [exec_dispatchRow] at hexec
        exact dispatchEntry_respondsExactlyWhenEnded hcons hexec
  · obtain ⟨hidle, hnone, -⟩ | ⟨_, _, -, rfl⟩ | ⟨acc, p, hm, -, hturn⟩ := fetch_answer_next hanswer
    · obtain ⟨-, hsome⟩ | ⟨hbusy, -⟩ := hs
      · exact absurd hnone hsome
      · exact absurd hidle hbusy
    · exact respond_respondsExactlyWhenEnded _ _ _
    · obtain ⟨hidle, -⟩ | ⟨-, hcons⟩ := hs
      · cases hm.symm.trans hidle
      · obtain ⟨_, _, hframed, -⟩ := (consistent_sinkWait_iff hm).mp hcons
        exact sinkTurn_respondsExactlyWhenEnded hframed.resp hturn

/-- Settles O46: with no reset in it, the step is its exchange. -/
theorem responseExactlyWhenEnded : Obligations.ResponseExactlyWhenEnded := by
  unfold Obligations.ResponseExactlyWhenEnded
  intro s t hrun h hs
  rw [step_of_running hrun] at h
  exact exchange_respondsExactlyWhenEnded (s := s.passMoment) h hs

/-! ### A reset before the response -/

/-- The step of an idle instance that accepts a request, in which a reset lands before the response: what the operation has
given its collaborators stays, and the slot is as it was (R103). -/
theorem step_of_answering {s t : State} {r : Issue} {rest : List Issue} {ms : List ResetMoment}
    (hinj : s.registry.injective = true) (hline : s.resetLine = .answering :: ms) (hidle : s.txn = .idle)
    (hreq : s.requests = r :: rest) (h : exec (decodeRequest r.request) (s.passMoment.accept r rest) = .next t) :
    step s = .next { afterReset t with svcOut := s.svcOut } := by
  simp only [step, takeStep, hinj, State.moment_of_cons s hline, Bool.not_true, Bool.false_eq_true, if_false]
  rw [exchange_of_request (s := s.passMoment) hidle hreq, h]
  rfl

theorem routeToParser_of_err {k : Kind} {input slice : List Byte} {s : State} {m : Nat} {e : ErrVal}
    (hd : s.parseDraws.head = .err m e) (hslice : bodySlice (seenInput s.inputRace input) = slice)
    (hm : m ≤ slice.length) :
    routeToParser k input s = .next
      { ended s (forwarding 4 (6 + m) e) with
          parseDraws := s.parseDraws.tail
          calls := s.calls ++ [.parse k (s.registry.entry k).zero slice] } := by
  subst hslice
  simp only [routeToParser, hd]
  exact if_pos hm

/-- Whatever the parser answers within its oracle's type, it has been called, and beside the slot nothing outlives the
transaction (R78, R103). -/
theorem routeToParser_next_of_answer {k : Kind} {input slice : List Byte} {s : State} {m : Nat}
    (hd : (∃ inst, s.parseDraws.head = .ok m inst) ∨ ∃ e, s.parseDraws.head = .err m e)
    (hslice : bodySlice (seenInput s.inputRace input) = slice) (hm : m ≤ slice.length) :
    ∃ t, routeToParser k input s = .next t ∧ ∀ slot, { afterReset t with svcOut := slot } =
      { afterReset s with
          svcOut := slot
          parseDraws := s.parseDraws.tail
          calls := s.calls ++ [.parse k (s.registry.entry k).zero slice] } := by
  obtain ⟨_, hd⟩ | ⟨_, hd⟩ := hd
  · exact ⟨_, routeToParser_of_ok hd hslice hm, fun _ => rfl⟩
  · exact ⟨_, routeToParser_of_err hd hslice hm, fun _ => rfl⟩

/-- An input whose header is not accepted, or names no kind, ends UNPACK with an error and no call of a parser. -/
theorem execUnpack_of_unregistered {s : State} {input : List Byte}
    (h : ∀ k b2 b3 b4 b5 body, seenInput s.inputRace input = 0x06 :: 0x10 :: b2 :: b3 :: b4 :: b5 :: body →
      b2 ++ b3 ≠ s.registry.serviceId k) :
    ∃ r, execUnpack input s = .next (s.begin.respond r) := by
  obtain ⟨b2, b3, b4, b5, body, hseen⟩ | ⟨st, n, hstop⟩ := accepted_or_scanStops (seenInput s.inputRace input)
  · have hnone : regLookup s.registry (be16 b2 b3) = none := by
      cases hk : regLookup s.registry (be16 b2 b3) with
      | none => rfl
      | some k => exact absurd (serviceId_of_regLookup hk).symm (h k b2 b3 b4 b5 body hseen)
    rw [execUnpack_of_accepted hseen, hnone]
    exact ⟨_, rfl⟩
  · exact ⟨_, execUnpack_of_scanStops hstop⟩

/-- Settles O55: each operation's exchange ends as its equation says, and the reset takes the response and the slot's write
away. -/
theorem resetBeforeResponseAborts : Obligations.ResetBeforeResponseAborts := by
  unfold Obligations.ResetBeforeResponseAborts
  intro s r rest ms i hinj hline hidle hreq hdec
  obtain rfl : decodeRequest r.request = i := Except.ok.inj hdec
  have hstep := fun t h => step_of_answering (t := t) hinj hline hidle hreq h
  rw [passed_one]
  refine ⟨fun sid bodyLen hi => ?_, fun input hi => ?_, fun input hi => ?_, fun k x hi => ?_⟩
  all_goals rw [hi] at hstep
  · exact (hstep _ (execHdrPack_eq sid bodyLen _)).trans rfl
  · obtain ⟨_, -, heq⟩ := execHdrUnpack_cases r.race input
    exact (hstep _ (heq (s.passMoment.accept r rest) rfl)).trans rfl
  · refine ⟨fun k b2 b3 b4 b5 body m hseen hsid hm hd => ?_, fun hnone => ?_⟩
    · obtain ⟨k', hk', heq⟩ := execUnpack_of_registered (s := s.passMoment.accept r rest) hseen hsid
      obtain rfl : k = k' := Option.some.inj ((regLookup_serviceId hinj k).symm.trans hk')
      have hslice : bodySlice (seenInput r.race input) = body := by rw [hseen]; rfl
      obtain ⟨t, ht, hleft⟩ := routeToParser_next_of_answer (k := k) (s := { (s.passMoment.accept r rest).begin with
        hdr := heldHeader (be16 b2 b3) (be16 b4 b5), cur := some 6 }) hd hslice hm
      exact (hstep t (heq.trans ht)).trans (congrArg Host.Outcome.next (hleft s.svcOut))
    · obtain ⟨_, heq⟩ := execUnpack_of_unregistered (s := s.passMoment.accept r rest) hnone
      exact (hstep _ heq).trans rfl
  · refine ⟨fun e hd => ?_, fun body hd => ⟨fun hlong hrefuse => ?_, fun hlen => ?_⟩⟩
    · have hser := routeToSerializer_of_err (k := k) (x := x) (s := (s.passMoment.accept r rest).begin) hd
      exact (hstep _ (execPack_tag.trans hser)).trans rfl
    · have hser := routeToSerializer_of_overflow (k := k) (x := x) (s := (s.passMoment.accept r rest).begin)
        hd hlong hrefuse
      exact (hstep _ (execPack_tag.trans hser)).trans rfl
    · have hpack := execPack_of_taken (k := k) (x := x) (s := s.passMoment.accept r rest) hd hlen
      refine ⟨fun hnone => ?_, fun ws hturns => ?_, fun j ws hturns hj => ?_⟩
      · exact (hstep _ (hpack.trans (sinkTurn_of_none hnone))).trans rfl
      · exact (hstep _ (hpack.trans (sinkTurn_of_acceptance (.inl hturns)))).trans rfl
      · rw [← packetOf_length s.registry k body] at hj
        obtain hturns | ⟨e, hturns⟩ := hturns
        · have hfits : 0 + j ≤ (packetOf s.registry k body).length := by omega
          exact (hstep _ (hpack.trans (sinkTurn_of_taking hturns hfits))).trans rfl
        · exact (hstep _ (hpack.trans (sinkTurn_of_fail hturns (Nat.zero_le j) hj))).trans rfl

end Sys2Proof.Machine

/-! The decoder and the encoder: each undoes the other, and which headers are a row (30_encoding.md R42 to R50). -/

namespace Sys2Proof.Machine

open Sys2Proof.Claims

/-! ### What the decoder makes of a header -/

theorem decodeHeader_of_length_ne (reg : Registry) {b0 : Byte} (h : b0 ≠ 0x06) (rest : List Byte) :
    decodeHeader reg (b0 :: rest) = .error (.headerLength b0) :=
  if_pos h

theorem decodeHeader_of_version_ne (reg : Registry) {b1 : Byte} (h : b1 ≠ 0x10) (rest : List Byte) :
    decodeHeader reg (0x06 :: b1 :: rest) = .error (.protocolVersion b1) :=
  if_pos h

section SixBytes

variable {reg : Registry} {b2 b3 b4 b5 : Byte} {body : List Byte}

theorem decodeHeader_of_unknown (h : regLookup reg (be16 b2 b3) = none) :
    decodeHeader reg (0x06 :: 0x10 :: b2 :: b3 :: b4 :: b5 :: body) = .error (.unknownService (be16 b2 b3)) := by
  simp [decodeHeader, Config.hdrLenConst, Config.protoVerConst, h]

theorem decodeHeader_of_found {k : Kind} (h : regLookup reg (be16 b2 b3) = some k) :
    decodeHeader reg (0x06 :: 0x10 :: b2 :: b3 :: b4 :: b5 :: body) = .ok (Instr.dispatchRow k (be16 b4 b5)) := by
  simp [decodeHeader, Config.hdrLenConst, Config.protoVerConst, h]

/-- R45: a header decodes exactly when its three fields hold, to the row of the kind looked up. -/
theorem decodeHeader_eq_ok_iff {b0 b1 : Byte} {i : Instr} :
    decodeHeader reg (b0 :: b1 :: b2 :: b3 :: b4 :: b5 :: body) = .ok i ↔
      b0 = 0x06 ∧ b1 = 0x10 ∧ ∃ k, regLookup reg (be16 b2 b3) = some k ∧ i = Instr.dispatchRow k (be16 b4 b5) := by
  constructor
  · intro h
    by_cases h0 : b0 = 0x06
    case neg => cases (decodeHeader_of_length_ne reg h0 _).symm.trans h
    subst h0
    by_cases h1 : b1 = 0x10
    case neg => cases (decodeHeader_of_version_ne reg h1 _).symm.trans h
    subst h1
    cases hk : regLookup reg (be16 b2 b3) with
    | none => cases (decodeHeader_of_unknown hk).symm.trans h
    | some k => exact ⟨rfl, rfl, k, rfl, (Except.ok.inj ((decodeHeader_of_found hk).symm.trans h)).symm⟩
  · rintro ⟨rfl, rfl, k, hk, rfl⟩
    exact decodeHeader_of_found hk

end SixBytes

/-- R59: under an injective registry the lookup finds a kind exactly by its identifier. -/
theorem regLookup_eq_some_iff {reg : Registry} (hinj : reg.injective = true) (v : Half) (k : Kind) :
    regLookup reg v = some k ↔ v = reg.serviceId k := by
  constructor
  · exact fun hk => (serviceId_of_regLookup hk).symm
  · rintro rfl
    exact regLookup_serviceId hinj k

/-! ### Decoding and encoding undo each other -/

/-- The encoding of a dispatch row decodes to it, where no two kinds share an identifier (R19). -/
theorem decode_encodeRow {reg : Registry} (hinj : reg.injective = true) (k : Kind) (t : Half) :
    decode reg (encodeRow reg k t) = .ok (Instr.dispatchRow k t) := by
  have hk : regLookup reg (be16 (hiByte (reg.serviceId k)) (loByte (reg.serviceId k))) = some k := by
    rw [be16_hiByte_loByte, regLookup_serviceId hinj]
  refine (decodeHeader_of_found (body := []) hk).trans ?_
  rw [be16_hiByte_loByte]

/-- Settles O1: an operation is read back from the wires it was put on, and a row from its six header bytes. -/
theorem decodeInvertsEncode : Obligations.DecodeInvertsEncode := by
  unfold Obligations.DecodeInvertsEncode
  intro reg i hinj _
  obtain ⟨sid, bodyLen, rfl⟩ | ⟨input, rfl⟩ | ⟨tag, x, rfl⟩ | ⟨input, rfl⟩ | ⟨k, t, rfl⟩ := operation_or_dispatchRow i
  · rfl
  · rfl
  · rfl
  · rfl
  · rw [encode_dispatchRow]
    exact decode_encodeRow hinj k t

/-- Settles O2: the constants, the identifier of the kind looked up and the total length are all that six bytes hold. -/
theorem encodeInvertsHeaderDecode : Obligations.EncodeInvertsHeaderDecode := by
  unfold Obligations.EncodeInvertsHeaderDecode
  intro reg bytes i hlen hdec
  match bytes, hlen with
  | [b0, b1, b2, b3, b4, b5], _ =>
    obtain ⟨rfl, rfl, k, hk, rfl⟩ := (decodeHeader_eq_ok_iff (body := [])).mp hdec
    rw [encode_dispatchRow, encodeRow, serviceId_of_regLookup hk]
    simp only [hiByte_be16, loByte_be16]
    rfl

/-! ### Match and mask -/

theorem append_eq_append_iff {v w : Nat} {a a' : BitVec v} {b b' : BitVec w} :
    a ++ b = a' ++ b' ↔ a = a' ∧ b = b' := by
  constructor
  · intro h
    have hhigh := congrArg (BitVec.extractLsb' w v) h
    have hlow := congrArg (BitVec.extractLsb' 0 w) h
    rw [BitVec.extractLsb'_append_eq_left, BitVec.extractLsb'_append_eq_left] at hhigh
    rw [BitVec.extractLsb'_append_eq_right, BitVec.extractLsb'_append_eq_right] at hlow
    exact ⟨hhigh, hlow⟩
  · rintro ⟨rfl, rfl⟩
    rfl

/-- The mask of R45 keeps `W[47:16]` and clears the total length. -/
theorem headerMask_and (high : BitVec 32) (totalLen : Half) :
    (high ++ totalLen) &&& 0xFFFFFFFF0000#48 = high ++ 0x0000#16 := by
  have hmask : 0xFFFFFFFF0000#48 = BitVec.allOnes 32 ++ 0x0000#16 := by decide
  rw [hmask, BitVec.and_append, BitVec.and_allOnes, BitVec.and_zero]

/-- R45: match and mask compare the first four bytes, and nothing else. -/
theorem headerWord_matches_iff (b0 b1 b2 b3 b4 b5 : Byte) (sid : Half) :
    (b0 ++ b1 ++ b2 ++ b3 ++ b4 ++ b5 : BitVec 48) &&& 0xFFFFFFFF0000#48 = (0x0610#16 ++ sid ++ 0x0000#16 : BitVec 48) ↔
      b0 = 0x06 ∧ b1 = 0x10 ∧ be16 b2 b3 = sid := by
  have hword : (b0 ++ b1 ++ b2 ++ b3 ++ b4 ++ b5 : BitVec 48) = ((b0 ++ b1) ++ be16 b2 b3) ++ be16 b4 b5 := by
    rw [BitVec.append_assoc (x₂ := b4), BitVec.append_assoc (x₂ := b2)]
    rfl
  have hconst : 0x0610#16 = 0x06#8 ++ 0x10#8 := by decide
  rw [hword, headerMask_and, hconst, BitVec.append_left_inj, append_eq_append_iff, append_eq_append_iff, and_assoc]
  rfl

/-- Equal rows are of one identifier: their encodings are equal. -/
theorem serviceId_eq_of_dispatchRow_eq (reg : Registry) {k j : Kind} {t u : Half}
    (h : Instr.dispatchRow k t = Instr.dispatchRow j u) : reg.serviceId k = reg.serviceId j := by
  have henc := congrArg (encode reg) h
  simp only [encode_dispatchRow, encodeRow, Encoded.header.injEq, List.cons.injEq] at henc
  obtain ⟨-, -, hhi, hlo, -⟩ := henc
  rw [← be16_hiByte_loByte (reg.serviceId k), hhi, hlo, be16_hiByte_loByte]

/-- Settles O3: the decoder reads the three fields, and match and mask compare the same ones. -/
theorem headerAcceptedByMatchAndMask : Obligations.HeaderAcceptedByMatchAndMask := by
  unfold Obligations.HeaderAcceptedByMatchAndMask
  intro reg b0 b1 b2 b3 b4 b5 body hinj
  simp only [decode, decodeHeader_eq_ok_iff, regLookup_eq_some_iff hinj]
  refine ⟨⟨?_, ?_⟩, fun p hp => ?_⟩
  · rintro ⟨_, h0, h1, k, hsid, -⟩
    exact ⟨h0, h1, k, hsid⟩
  · rintro ⟨h0, h1, k, hsid⟩
    exact ⟨_, h0, h1, k, hsid, rfl⟩
  · rw [headerWord_matches_iff]
    constructor
    · rintro ⟨t, h0, h1, k, hsid, hrow⟩
      rw [row_eq_dispatchRow hp] at hrow
      exact ⟨h0, h1, hsid.trans (serviceId_eq_of_dispatchRow_eq reg hrow).symm⟩
    · rintro ⟨h0, h1, hsid⟩
      exact ⟨be16 b4 b5, h0, h1, p.2, hsid, row_eq_dispatchRow hp _⟩

/-- Settles O4, by evaluation: each word is a closed term. -/
theorem tableWordsDecode : Obligations.TableWordsDecode := by
  unfold Obligations.TableWordsDecode
  decide

end Sys2Proof.Machine

/-! A transaction at the mux: what its step runs, which rows it refuses, and that its operation does the same at once. -/

namespace Sys2Proof.Machine

open Sys2Proof.Claims

/-! ### The exchange of a transaction at the mux -/

section AtMux

variable {s : State} {input : List Byte} {h : Header}

/-- An UNPACK at the mux runs the row its header decodes to. -/
theorem exchange_of_unpackAtMux {i : Instr} (hm : s.txn = .unpackAtMux input) (hread : readHeader s.hdr = .ok h)
    (hdec : decodeHeader s.registry h.bytes = .ok i) : exchange s = exec i s := by
  simp only [exchange, fetch, fetchEntry, hm, hread, hdec]

/-- An UNPACK at the mux whose header is no row ends with the error of its class (R50). -/
theorem exchange_of_unaccepted {e : DecodeError} (hm : s.txn = .unpackAtMux input) (hread : readHeader s.hdr = .ok h)
    (hdec : decodeHeader s.registry h.bytes = .error e) : exchange s = .next (raiseUnaccepted e s) := by
  simp only [exchange, fetch, fetchEntry, hm, hread, hdec]

/-- A PACK at the mux runs the row of its kind. -/
theorem exchange_of_packAtMux {k : Kind} {x : Payload} (hm : s.txn = .packAtMux k x) :
    exchange s = exec (Instr.dispatchRow k 0) s := by
  simp only [exchange, fetch, hm]

end AtMux

/-- Settles O8: with no reset in it, the step is the exchange, which fetches the row from `H` or from the kind. -/
theorem stepRunsSelectedRow : Obligations.StepRunsSelectedRow := by
  unfold Obligations.StepRunsSelectedRow
  refine ⟨fun s input service totalLen i hrun hm hh hdec _ => ?_, fun s x hrun p hp hm => ?_⟩
  · have hread := (congrArg readHeader hh).trans (readHeader_full 0x06 0x10 service totalLen)
    rw [step_of_running hrun, passed_one]
    exact exchange_of_unpackAtMux (s := s.passMoment) hm hread hdec
  · rw [step_of_running hrun, passed_one, row_eq_dispatchRow hp]
    exact exchange_of_packAtMux (s := s.passMoment) hm

/-- Settles O54: the decoder's error is the first check that fails, and it is raised with that check's count. -/
theorem unacceptedHeaderEndsUnpack : Obligations.UnacceptedHeaderEndsUnpack := by
  unfold Obligations.UnacceptedHeaderEndsUnpack
  intro s input l v service totalLen hrun hm hh
  have hread := (congrArg readHeader hh).trans (readHeader_full l v service totalLen)
  have hstep : ∀ e, decodeHeader s.registry (Header.bytes ⟨l, v, service, totalLen⟩) = .error e →
      step s = .next (raiseUnaccepted e (passed 1 s)) := fun e hdec => by
    rw [step_of_running hrun, passed_one]
    exact exchange_of_unaccepted (s := s.passMoment) hm hread hdec
  refine ⟨fun hl => ?_, ?_, ?_⟩
  · exact hstep _ (decodeHeader_of_length_ne _ hl _)
  · rintro rfl hv
    exact hstep _ (decodeHeader_of_version_ne _ hv _)
  · rintro rfl rfl hnone
    have hlookup : regLookup s.registry (be16 (hiByte service) (loByte service)) = none := by
      rw [be16_hiByte_loByte, Option.eq_none_iff_forall_ne_some]
      exact fun k hk => hnone k (serviceId_of_regLookup hk)
    exact hstep _ (decodeHeader_of_unknown hlookup)

/-! ### A row that is not selected -/

/-- Another kind's identifier in the header does not select the entry (R45). -/
theorem headerSelects_of_service_ne {reg : Registry} {k : Kind} {h : Header} (hne : h.service ≠ reg.serviceId k) :
    headerSelects reg k h = false := by
  simp [headerSelects, hne]

/-- Settles O30: the row is its kind's entry, which looks at the transaction's place, its header or its kind. -/
theorem unselectedRowRefused : Obligations.UnselectedRowRefused := by
  unfold Obligations.UnselectedRowRefused
  intro s u p hp
  rw [exec_row hp]
  refine ⟨fun hm => ?_, fun n hm => ?_, fun input service totalLen hm hh hne => ?_, fun k x hm hne => ?_⟩
  · simp only [dispatchEntry, hm]
  · simp only [dispatchEntry, hm]
  · have hsel : headerSelects s.registry p.2 ⟨0x06, 0x10, service, totalLen⟩ = false := headerSelects_of_service_ne hne
    simp only [dispatchEntry, hm, hh, heldHeader, readHeader_full, hsel]
    rfl
  · simp only [dispatchEntry, hm]
    exact if_neg hne

/-! ### An operation runs its row -/

/-- The UNPACK side of an entry does not look at the transaction's place, and sets it itself. -/
theorem routeToParser_holdAt (k : Kind) (input : List Byte) (t : Txn) (s : State) :
    routeToParser k input (s.holdAt t) = routeToParser k input s := by
  simp only [routeToParser, State.holdAt_parseDraws]
  split <;> rfl

/-- The PACK side of an entry does not look at the transaction's place, and sets it itself. -/
theorem routeToSerializer_holdAt (k : Kind) (x : Payload) (t : Txn) (s : State) :
    routeToSerializer k x (s.holdAt t) = routeToSerializer k x s := by
  rw [routeToSerializer_eq, routeToSerializer_eq]
  rfl

/-- UNPACK of an accepted header is the row of its kind, executed at the mux (R45, R76). -/
theorem exec_unpack_eq_row {s : State} {input body : List Byte} {b2 b3 b4 b5 : Byte} (hinj : s.registry.injective = true)
    (hseen : seenInput s.inputRace input = 0x06 :: 0x10 :: b2 :: b3 :: b4 :: b5 :: body)
    {p : (Half → Instr) × Kind} (hp : p ∈ rows) (hsid : be16 b2 b3 = s.registry.serviceId p.2) (u : Half) :
    exec (.unpack input) s = exec (p.1 u) (unpackAtMux s input (be16 b2 b3) (be16 b4 b5)) := by
  have hk : regLookup s.registry (be16 b2 b3) = some p.2 := by rw [hsid, regLookup_serviceId hinj]
  calc exec (.unpack input) s
      = routeToParser p.2 input { s.begin with hdr := heldHeader (be16 b2 b3) (be16 b4 b5), cur := some 6 } := by
        refine (execUnpack_of_accepted hseen).trans ?_
        rw [hk]
    _ = routeToParser p.2 input (unpackAtMux s input (be16 b2 b3) (be16 b4 b5)) :=
        (routeToParser_holdAt p.2 input (.unpackAtMux input) _).symm
    _ = exec (p.1 u) (unpackAtMux s input (be16 b2 b3) (be16 b4 b5)) := by
        refine (exec_row_of_unpackAtMux (t := be16 b4 b5) hp rfl ?_ u).symm
        rw [hsid]
        rfl

/-- PACK of a payload of a kind is the row of the kind, executed at the mux (R75). -/
theorem exec_pack_eq_row (s : State) (x : Payload) {p : (Half → Instr) × Kind} (hp : p ∈ rows) (u : Half) :
    exec (.pack p.2.tag x) s = exec (p.1 u) (packAtMux s p.2 x) := by
  rw [execPack_tag, exec_row_of_packAtMux hp u rfl]
  exact (routeToSerializer_holdAt p.2 x (.packAtMux p.2 x) s.begin).symm

/-- Settles O41: an operation is its row at the mux, and the step there fetches that row. -/
theorem operationRunsItsRow : Obligations.OperationRunsItsRow := by
  unfold Obligations.OperationRunsItsRow
  obtain ⟨hunpack, hpack⟩ := stepRunsSelectedRow
  refine ⟨fun s input b2 b3 b4 b5 body u p hp hinj hseen hsid => ⟨?_, fun hrun => ?_⟩,
    fun s x u p hp => ⟨exec_pack_eq_row s x hp u, fun hrun => ?_⟩⟩
  · exact exec_unpack_eq_row hinj hseen hp hsid u
  · have hdec : decode s.registry (encodeRow s.registry p.2 (be16 b4 b5)) = .ok (p.1 (be16 b4 b5)) := by
      rw [row_eq_dispatchRow hp]
      exact decode_encodeRow hinj p.2 _
    rw [encodeRow, ← hsid] at hdec
    have hwf : (p.1 (be16 b4 b5)).wellFormed = true := by rw [row_eq_dispatchRow hp, dispatchRow_wellFormed]
    refine (hunpack (unpackAtMux s input (b2 ++ b3) (b4 ++ b5)) input _ _ _ hrun rfl rfl hdec hwf).trans ?_
    exact (exec_unpack_eq_row (s := passed 1 s) hinj hseen hp hsid _).symm
  · refine (hpack (packAtMux s p.2 x) x hrun p hp rfl).trans ?_
    exact (exec_pack_eq_row (passed 1 s) x hp 0).symm

end Sys2Proof.Machine

/-! The header codec: the header HDR_PACK builds, every answer of HDR_UNPACK, and what UNPACK reads of the total length
(40_header_codec.md R53 to R58). -/

namespace Sys2Proof.Machine

open Sys2Proof.Claims

/-! ### HDR_PACK -/

theorem exec_hdrPack_of_taken {sid : Half} {bodyLen : Nat} {s : State} (h : lengthTaken s bodyLen) :
    exec (.hdrPack sid bodyLen) s = .next (ended s { plain 0 6 with hdr := some (headerOf sid bodyLen) }) := by
  refine (execHdrPack_eq sid bodyLen s).trans ?_
  rw [if_neg ((lengthTaken_iff s bodyLen).mp h)]
  rfl

/-- Settles O13: a length that is taken gives the built header, and any other is LEN_OVERFLOW. -/
theorem hdrPackBuildsHeader : Obligations.HdrPackBuildsHeader := by
  unfold Obligations.HdrPackBuildsHeader
  refine fun s sid bodyLen => ⟨exec_hdrPack_of_taken, fun hlong hrefuse => ?_⟩
  refine (execHdrPack_eq sid bodyLen s).trans ?_
  rw [if_pos ⟨hlong, hrefuse⟩]
  rfl

/-! ### The bytes at which the scan stops -/

theorem scanStops_nil : ScanStops [] .shortInput 0 :=
  ⟨.inl rfl, fun s => ⟨_, scanHeader_eq [] s⟩⟩

theorem scanStops_of_length_ne {b0 : Byte} (h : b0 ≠ 0x06) (rest : List Byte) : ScanStops (b0 :: rest) .hdrLen 1 :=
  ⟨.inr (.inl rfl), fun s => ⟨_, (scanHeader_eq _ s).trans (if_pos h)⟩⟩

theorem scanStops_before_version : ScanStops [0x06] .shortInput 1 :=
  ⟨.inl rfl, fun s => ⟨_, scanHeader_eq _ s⟩⟩

theorem scanStops_of_version_ne {b1 : Byte} (h : b1 ≠ 0x10) (rest : List Byte) :
    ScanStops (0x06 :: b1 :: rest) .hdrVer 2 :=
  ⟨.inr (.inr rfl), fun s => ⟨_, (scanHeader_eq _ s).trans (if_pos h)⟩⟩

theorem scanStops_before_service {rest : List Byte} (h : rest.length ≤ 1) :
    ScanStops (0x06 :: 0x10 :: rest) .shortInput 2 := by
  match rest, h with
  | [], _ | [_], _ => exact ⟨.inl rfl, fun s => ⟨_, scanHeader_eq _ s⟩⟩

theorem scanStops_before_totalLen {rest : List Byte} (h : rest.length = 2 ∨ rest.length = 3) :
    ScanStops (0x06 :: 0x10 :: rest) .shortInput 4 := by
  match rest, h with
  | [_, _], _ | [_, _, _], _ => exact ⟨.inl rfl, fun s => ⟨_, scanHeader_eq _ s⟩⟩

/-! ### HDR_UNPACK -/

theorem unpackedHeader_of_length_ne {b0 : Byte} (h : b0 ≠ 0x06) (rest : List Byte) :
    unpackedHeader (b0 :: rest) = plain 1 1 :=
  if_pos h

theorem unpackedHeader_of_version_ne {b1 : Byte} (h : b1 ≠ 0x10) (rest : List Byte) :
    unpackedHeader (0x06 :: b1 :: rest) = plain 2 2 :=
  if_pos h

/-- R54: the answer goes by the first field that is missing or wrong. -/
theorem execHdrUnpack_eq (input : List Byte) (s : State) :
    execHdrUnpack input s = .next (s.begin.respond (unpackedHeader (seenInput s.inputRace input))) := by
  cases hseen : seenInput s.inputRace input with
  | nil => exact execHdrUnpack_of_scanStops (hseen ▸ scanStops_nil)
  | cons b0 r0 =>
    by_cases h0 : b0 = 0x06
    case neg =>
      rw [unpackedHeader_of_length_ne h0]
      exact execHdrUnpack_of_scanStops (hseen ▸ scanStops_of_length_ne h0 r0)
    subst h0
    match r0 with
    | [] => exact execHdrUnpack_of_scanStops (hseen ▸ scanStops_before_version)
    | b1 :: r1 =>
      by_cases h1 : b1 = 0x10
      case neg =>
        rw [unpackedHeader_of_version_ne h1]
        exact execHdrUnpack_of_scanStops (hseen ▸ scanStops_of_version_ne h1 r1)
      subst h1
      match r1 with
      | [] | [_] => exact execHdrUnpack_of_scanStops (hseen ▸ scanStops_before_service (by simp))
      | [_, _] | [_, _, _] => exact execHdrUnpack_of_scanStops (hseen ▸ scanStops_before_totalLen (by simp))
      | b2 :: b3 :: b4 :: b5 :: body => exact execHdrUnpack_of_accepted hseen

/-- Settles O14, by the shape of the bytes that the reads return. -/
theorem hdrUnpackReadsAndChecks : Obligations.HdrUnpackReadsAndChecks := by
  unfold Obligations.HdrUnpackReadsAndChecks
  exact fun s input => execHdrUnpack_eq input s

/-- The answer to a built header and any bytes after it: both constants hold, and both fields are read back. -/
theorem unpackedHeader_headerOf (sid : Half) (bodyLen : Nat) (t : List Byte) :
    unpackedHeader (headerOf sid bodyLen ++ t) = okFields sid (BitVec.ofNat 16 (bodyLen + 6)) :=
  congrArg₂ okFields (be16_hiByte_loByte sid) (be16_hiByte_loByte (BitVec.ofNat 16 (bodyLen + 6)))

/-- Settles O15: up to 65529 bytes of body the length is taken, and `B + 6` fits its field. -/
theorem hdrUnpackInvertsHdrPack : Obligations.HdrUnpackInvertsHdrPack := by
  unfold Obligations.HdrUnpackInvertsHdrPack
  intro s u sid bodyLen t hlen hstable
  refine ⟨_, _, headerOf sid bodyLen, BitVec.ofNat 16 (bodyLen + 6), exec_hdrPack_of_taken (.inl hlen), rfl, rfl, rfl,
    ?_, ?_⟩
  · rw [hdrUnpackReadsAndChecks, hstable, seenInput_nil_race, unpackedHeader_headerOf]
  · rw [BitVec.toNat_ofNat]
    omega

/-- HDR_UNPACK reports a status exactly when the answer to the bytes read has it. -/
theorem exec_hdrUnpack_reports_iff (s : State) (input : List Byte) (status : BitVec 4) :
    (∃ t r, exec (.hdrUnpack input) s = .next t ∧ t.resp = some r ∧ r.status = status) ↔
      (unpackedHeader (seenInput s.inputRace input)).status = status := by
  rw [hdrUnpackReadsAndChecks]
  constructor
  · rintro ⟨_, _, ⟨⟩, ⟨⟩, hstatus⟩
    exact hstatus
  · exact fun hstatus => ⟨_, _, rfl, rfl, hstatus⟩

/-- With both constants in place the answer is OK or SHORT_INPUT. -/
theorem unpackedHeader_status_of_constants (rest : List Byte) :
    (unpackedHeader (0x06 :: 0x10 :: rest)).status = 0 ∨ (unpackedHeader (0x06 :: 0x10 :: rest)).status = 5 := by
  match rest with
  | [] | [_] | [_, _] | [_, _, _] => exact .inr rfl
  | _ :: _ :: _ :: _ :: _ => exact .inl rfl

theorem unpackedHeader_status_eq_hdrVer_iff (b1 : Byte) (rest : List Byte) :
    (unpackedHeader (0x06 :: b1 :: rest)).status = 2 ↔ b1 ≠ 0x10 := by
  by_cases h1 : b1 = 0x10
  · subst h1
    obtain h | h := unpackedHeader_status_of_constants rest <;> rw [h] <;> decide
  · rw [unpackedHeader_of_version_ne h1]
    exact iff_of_true rfl h1

theorem unpackedHeader_status_eq_hdrLen_iff (b0 : Byte) (rest : List Byte) :
    (unpackedHeader (b0 :: rest)).status = 1 ↔ b0 ≠ 0x06 := by
  by_cases h0 : b0 = 0x06
  case neg =>
    rw [unpackedHeader_of_length_ne h0]
    exact iff_of_true rfl h0
  subst h0
  refine iff_of_false ?_ (not_not.mpr rfl)
  match rest with
  | [] => decide
  | b1 :: r1 =>
    by_cases h1 : b1 = 0x10
    · subst h1
      obtain h | h := unpackedHeader_status_of_constants r1 <;> rw [h] <;> decide
    · rw [unpackedHeader_of_version_ne h1]
      decide

/-- Settles O16: no answer but that of a wrong constant has its status. -/
theorem constantsComparedWhole : Obligations.ConstantsComparedWhole := by
  unfold Obligations.ConstantsComparedWhole
  intro s input b0 r0 hseen
  constructor
  · rw [exec_hdrUnpack_reports_iff, hseen, unpackedHeader_status_eq_hdrLen_iff]
  · rintro b1 r1 rfl rfl
    rw [exec_hdrUnpack_reports_iff, hseen, unpackedHeader_status_eq_hdrVer_iff]

/-! ### The total length on UNPACK -/

/-- The UNPACK side of an entry reads the body of its input, and discards `H` unread. -/
theorem routeToParser_congr_slice {k : Kind} {input input' : List Byte} {s : State}
    (hslice : bodySlice (seenInput s.inputRace input) = bodySlice (seenInput s.inputRace input')) (h h' : HeaderReg) :
    routeToParser k input { s with hdr := h } = routeToParser k input' { s with hdr := h' } := by
  simp only [routeToParser, hslice]
  cases s.parseDraws.head <;> rfl

/-- Settles O26: where the constants hold, the total length goes into `H` alone, which the parser's entry does not read;
where one does not, the scan stops before it. -/
theorem totalLengthIgnored : Obligations.TotalLengthIgnored := by
  unfold Obligations.TotalLengthIgnored
  intro s b0 b1 b2 b3 t4 t5 u4 u5 body hstable
  have hseen (input : List Byte) : seenInput s.inputRace input = input := by rw [hstable, seenInput_nil_race]
  have hstops {input : List Byte} {st : Status} {n : Nat} (h : ScanStops input st n) :
      exec (.unpack input) s = .next (s.begin.respond (Response.bare st n none)) :=
    execUnpack_of_scanStops ((hseen input).symm ▸ h)
  by_cases h0 : b0 = 0x06
  case neg => rw [hstops (scanStops_of_length_ne h0 _), hstops (scanStops_of_length_ne h0 _)]
  subst h0
  by_cases h1 : b1 = 0x10
  case neg => rw [hstops (scanStops_of_version_ne h1 _), hstops (scanStops_of_version_ne h1 _)]
  subst h1
  refine (execUnpack_of_accepted (hseen _)).trans (Eq.trans ?_ (execUnpack_of_accepted (hseen _)).symm)
  cases regLookup s.registry (be16 b2 b3) with
  | none => rfl
  | some k =>
    have hslice : bodySlice (seenInput s.inputRace (0x06 :: 0x10 :: b2 :: b3 :: t4 :: t5 :: body)) =
        bodySlice (seenInput s.inputRace (0x06 :: 0x10 :: b2 :: b3 :: u4 :: u5 :: body)) := by
      rw [hseen, hseen]
      rfl
    exact routeToParser_congr_slice (s := { s.begin with cur := some 6 }) hslice _ _

end Sys2Proof.Machine

/-! The dispatch multiplexer: what the lookup finds, and what each row makes of a transaction at the mux
(41_dispatch.md R59 to R74). -/

namespace Sys2Proof.Machine

open Sys2Proof.Claims

/-! ### The lookup -/

/-- R59: the lookup misses exactly the values that no entry holds, whether or not two entries are the same. -/
theorem regLookup_eq_none_iff (reg : Registry) (v : Half) : regLookup reg v = none ↔ ∀ k, reg.serviceId k ≠ v := by
  constructor
  · exact serviceId_ne_of_regLookup
  · intro hmiss
    exact Option.eq_none_iff_forall_ne_some.mpr fun k hk => hmiss k (serviceId_of_regLookup hk)

/-- Settles O5: a kind is found exactly by its identifier, and a value is missed exactly when it is no identifier. -/
theorem lookupFindsUniqueEntry : Obligations.LookupFindsUniqueEntry := by
  unfold Obligations.LookupFindsUniqueEntry
  intro reg v hinj
  exact ⟨fun k => (regLookup_eq_some_iff hinj v k).trans eq_comm, regLookup_eq_none_iff reg v⟩

/-- Settles O20: the header is accepted with the cursor at 6, and the lookup misses before any parser is called. -/
theorem unknownServiceReportsSix : Obligations.UnknownServiceReportsSix := by
  unfold Obligations.UnknownServiceReportsSix
  intro s input b2 b3 b4 b5 body hseen hmiss
  have hnone : regLookup s.registry (be16 b2 b3) = none := (regLookup_eq_none_iff _ _).mpr hmiss
  refine (execUnpack_of_accepted hseen).trans ?_
  rw [hnone]
  rfl

/-! ### The rows -/

/-- Settles O27: the row is its kind's parser entry, and the slice `in[6..)` is long enough for the parser's count. -/
theorem rowRoutesBodyToParser : Obligations.RowRoutesBodyToParser := by
  unfold Obligations.RowRoutesBodyToParser
  intro s input t u m p hp hm hh hcount
  have hfits : m ≤ (bodySlice (seenInput s.inputRace input)).length := (bodySlice_length _ _).symm ▸ hcount
  rw [exec_row_of_unpackAtMux hp hm hh]
  exact ⟨fun inst hd => routeToParser_of_ok hd rfl hfits, fun e hd => routeToParser_of_err hd rfl hfits⟩

/-- Settles O28: the row is its kind's serializer entry; an error of the serializer or a body too long ends it there, and a
taken body is offered to the sink, whose first turn says how it goes on. -/
theorem rowPacksPayload : Obligations.RowPacksPayload := by
  unfold Obligations.RowPacksPayload
  intro s x u p hp hm
  rw [exec_row_of_packAtMux hp u hm]
  refine ⟨fun e hd => routeToSerializer_of_err hd, fun body hd => ⟨fun hlong hrefuse => ?_, fun hlen => ?_⟩⟩
  · exact routeToSerializer_of_overflow hd hlong hrefuse
  · rw [routeToSerializer_of_taken hd hlen, ← packetOf_length s.registry p.2 body]
    exact ⟨fun hnone => sinkTurn_of_none hnone, fun ws hturns => sinkTurn_of_acceptance (.inl hturns),
      fun j e ws hturns hj => sinkTurn_of_fail hturns (Nat.zero_le j) hj⟩

end Sys2Proof.Machine

/-! UNPACK beside PACK: a parser's error, the requester's slot, and the round trip (42_packet.md R76 to R81). -/

namespace Sys2Proof.Machine

open Sys2Proof.Claims

/-! ### UNPACK at its parser -/

/-- UNPACK of a header that a kind's row accepts is the parser's entry of that kind, with the header in `H` (R45, R76). -/
theorem exec_unpack_of_kind {s : State} {input body : List Byte} {k : Kind} {b2 b3 b4 b5 : Byte}
    (hinj : s.registry.injective = true)
    (hseen : seenInput s.inputRace input = 0x06 :: 0x10 :: b2 :: b3 :: b4 :: b5 :: body)
    (hsid : b2 ++ b3 = s.registry.serviceId k) :
    exec (.unpack input) s =
      routeToParser k input { s.begin with hdr := heldHeader (be16 b2 b3) (be16 b4 b5), cur := some 6 } := by
  obtain ⟨k', hk', heq⟩ := execUnpack_of_registered hseen hsid
  obtain rfl : k = k' := Option.some.inj ((regLookup_serviceId hinj k).symm.trans hk')
  exact heq

/-- Settles O22: the header is accepted, and the parser's entry of its kind forwards the error. -/
theorem unpackForwardsParserError : Obligations.UnpackForwardsParserError := by
  unfold Obligations.UnpackForwardsParserError
  intro s input k b2 b3 b4 b5 body m e hinj hseen hsid hd hm
  have hslice : bodySlice (seenInput s.inputRace input) = body := by rw [hseen]; rfl
  rw [exec_unpack_of_kind hinj hseen hsid]
  exact routeToParser_of_err hd hslice hm

/-! ### The requester's slot -/

/-- UNPACK delivers one instance to the response and to the slot, or ends with an error and leaves the slot (R78). -/
theorem execUnpack_delivers_or_errs {input : List Byte} {s t : State} (h : execUnpack input s = .next t) :
    (∃ n, t.resp = some (okInstance n t.svcOut.kind t.svcOut.inst)) ∨
    (∃ r, t.resp = some r ∧ r.status ≠ 0 ∧ t.svcOut = s.svcOut) := by
  obtain ⟨r, hrej, heq⟩ | ⟨_, _, heq⟩ := execUnpack_cases s.registry s.inputRace input
  · cases (heq s rfl rfl).symm.trans h
    exact .inr ⟨r, rfl, hrej.status_ne_zero, rfl⟩
  · obtain ⟨_, m, _, rfl⟩ | ⟨_, _, _, rfl⟩ := routeToParser_cases ((heq s rfl rfl).symm.trans h)
    · exact .inl ⟨6 + m, rfl⟩
    · exact .inr ⟨_, rfl, (by decide : (4 : BitVec 4) ≠ 0), rfl⟩

/-- Settles O24: of the two ends of UNPACK the delivery has status 0 and the error has not. -/
theorem svcOutWrittenOnlyOnOk : Obligations.SvcOutWrittenOnlyOnOk := by
  unfold Obligations.SvcOutWrittenOnlyOnOk
  intro s t input h
  obtain ⟨n, hresp⟩ | ⟨r, hresp, hstatus, hslot⟩ := execUnpack_delivers_or_errs h
  · exact ⟨fun _ => ⟨n, hresp⟩, fun hnot => absurd ⟨_, hresp, rfl⟩ hnot⟩
  · refine ⟨?_, fun _ => hslot⟩
    rintro ⟨r', hresp', hok⟩
    obtain rfl : r = r' := Option.some.inj (hresp.symm.trans hresp')
    exact absurd hok hstatus

/-! ### UNPACK of a packet -/

/-- UNPACK of a packet and any bytes after it delivers its kind, when the parser takes exactly the body (R81). -/
theorem exec_unpack_packetOf {u : State} {k : Kind} {body after : List Byte} {inst : Instance}
    (hinj : u.registry.injective = true) (hstable : u.inputRace = [])
    (hd : u.parseDraws.head = .ok body.length inst) :
    exec (.unpack (packetOf u.registry k body ++ after)) u = .next
      { ended u (okInstance (6 + body.length) k inst) with
          svcOut := { kind := k, inst := inst }
          parseDraws := u.parseDraws.tail
          calls := u.calls ++ [.parse k (u.registry.entry k).zero (body ++ after)] } := by
  have hseen : seenInput u.inputRace (packetOf u.registry k body ++ after) =
      headerOf (u.registry.serviceId k) body.length ++ (body ++ after) := by
    rw [hstable, seenInput_nil_race, packetOf, List.append_assoc]
  have hfits : body.length ≤ (body ++ after).length := by simp
  exact unpackDeliversInstance u _ k _ _ _ _ (body ++ after) body.length inst hinj hseen
    (be16_hiByte_loByte (u.registry.serviceId k)) hd hfits

/-- Settles O42: the accepting sink takes the whole packet, which UNPACK reads back under the same registry. -/
theorem unpackInvertsPack : Obligations.UnpackInvertsPack := by
  unfold Obligations.UnpackInvertsPack
  intro s u k x body after inst ws hinj hser hlen hturns hreg hstable hparse
  refine ⟨_, packetOf u.registry k body, packEmitsPacket s k x body ws hser (.inl hlen) (.inl hturns), ?_, rfl,
    exec_unpack_packetOf (hreg ▸ hinj) hstable hparse⟩
  rw [hreg]

end Sys2Proof.Machine

/-! How a transaction ends or waits: a header that is rejected, a parser that always answers, and a PACK that waits on the
sink alone (60_exceptions.md R84 to R91, R95, R100). -/

namespace Sys2Proof.Machine

open Sys2Proof.Claims

/-! ### A header that is rejected -/

/-- Where the scan of the bytes read stops, both HDR_UNPACK and UNPACK end, and nothing else changes (R83, R94). -/
theorem exec_unpacks_of_scanStops {s : State} {input : List Byte} {st : Status} {n : Nat}
    (h : ScanStops (seenInput s.inputRace input) st n) :
    exec (.hdrUnpack input) s = .next (ended s (plain st.code n)) ∧
      exec (.unpack input) s = .next (ended s (plain st.code n)) :=
  ⟨execHdrUnpack_of_scanStops h, execUnpack_of_scanStops h⟩

/-- Settles O17: the scan stops at the length byte. -/
theorem wrongLengthByteGivesHdrLen : Obligations.WrongLengthByteGivesHdrLen := by
  unfold Obligations.WrongLengthByteGivesHdrLen
  intro s input b0 r0 hseen hwrong
  exact exec_unpacks_of_scanStops (hseen ▸ scanStops_of_length_ne hwrong r0)

/-- Settles O18: the scan stops at the version byte. -/
theorem wrongVersionByteGivesHdrVer : Obligations.WrongVersionByteGivesHdrVer := by
  unfold Obligations.WrongVersionByteGivesHdrVer
  intro s input b1 r1 hseen hwrong
  exact exec_unpacks_of_scanStops (hseen ▸ scanStops_of_version_ne hwrong r1)

/-- Settles O19: the scan stops before the field that is missing, with the cursor after the last complete one. -/
theorem shortInputReportsCompleteFields : Obligations.ShortInputReportsCompleteFields := by
  unfold Obligations.ShortInputReportsCompleteFields
  intro s input n hshort
  have hstops : ScanStops (seenInput s.inputRace input) .shortInput n := by
    obtain ⟨hseen, rfl⟩ | ⟨hseen, rfl⟩ | ⟨⟨r, hseen, hlen⟩, rfl⟩ | ⟨⟨r, hseen, hlen⟩, rfl⟩ := hshort
    all_goals rw [hseen]
    · exact scanStops_nil
    · exact scanStops_before_version
    · exact scanStops_before_service hlen
    · exact scanStops_before_totalLen hlen
  exact exec_unpacks_of_scanStops hstops

/-! ### The parser always answers -/

/-- The UNPACK side of an entry ends with a response, unless the parser's count is outside its oracle's type (R73, R100). -/
theorem routeToParser_responds_or_overruns (k : Kind) (input : List Byte) (s : State) :
    (∃ t, routeToParser k input s = .next t ∧ t.txn = .idle ∧ t.resp ≠ none) ∨
    (routeToParser k input s = .refused .parserOverrun ∧
      ∃ m, input.length - 6 < m ∧ ((∃ inst, s.parseDraws.head = .ok m inst) ∨ ∃ e, s.parseDraws.head = .err m e)) := by
  obtain ⟨m, hd⟩ : ∃ m, (∃ inst, s.parseDraws.head = .ok m inst) ∨ ∃ e, s.parseDraws.head = .err m e := by
    cases s.parseDraws.head with
    | ok m inst => exact ⟨m, .inl ⟨inst, rfl⟩⟩
    | err m e => exact ⟨m, .inr ⟨e, rfl⟩⟩
  obtain hover | hcount := Nat.lt_or_ge (input.length - 6) m
  · exact .inr ⟨routeToParser_of_overrun hover hd, m, hover, hd⟩
  · have hfits : m ≤ (bodySlice (seenInput s.inputRace input)).length := (bodySlice_length _ _).symm ▸ hcount
    obtain ⟨inst, hd⟩ | ⟨e, hd⟩ := hd
    · exact .inl ⟨_, routeToParser_of_ok hd rfl hfits, rfl, Option.some_ne_none _⟩
    · exact .inl ⟨_, routeToParser_of_err hd rfl hfits, rfl, Option.some_ne_none _⟩

/-- Settles O23: UNPACK rejects its header with a response, or is a parser's entry. -/
theorem unpackNeverWaits : Obligations.UnpackNeverWaits := by
  unfold Obligations.UnpackNeverWaits
  intro s input
  obtain ⟨r, -, heq⟩ | ⟨k, hdr, heq⟩ := execUnpack_cases s.registry s.inputRace input
  · exact .inl ⟨_, heq s rfl rfl, rfl, Option.some_ne_none r⟩
  · have hentry : exec (.unpack input) s = routeToParser k input { s.begin with hdr := hdr, cur := some 6 } :=
      heq s rfl rfl
    rw [hentry]
    exact routeToParser_responds_or_overruns k input _

/-! ### PACK waits on the sink alone -/

section Sink

variable {k : Kind} {x : Payload} {p : List Byte} {acc : Nat} {s t : State}

/-- A turn of the sink ends the transaction, or leaves it waiting for the same packet as silent as it was (R35, R108). -/
theorem sinkTurn_idle_or_waiting (hw : readPacket s = .ok p) (hacc : acc ≤ p.length)
    (h : sinkTurn p acc s = .next t) : t.txn = .idle ∨ t.resp = s.resp ∧ ∃ acc', waitingOnSink t p acc' := by
  obtain ⟨bytes, rest, acc', rfl, hacc'⟩ | ⟨_, _, rfl⟩ | ⟨_, _, _, _, rfl, -⟩ | ⟨_, -, rfl⟩ := sinkTurn_cases h
  · exact .inr ⟨rfl, acc', rfl, hw, by omega⟩
  · exact .inl rfl
  · exact .inl rfl
  · exact .inl rfl

/-- Everything the PACK side of an entry can do: a response before the sink, LEN_OVERFLOW under REFUSE alone, or the sink's
first turn at the packet of a taken body (R75, R79, R91). -/
theorem routeToSerializer_ended_or_offered (h : routeToSerializer k x s = .next t) :
    (∃ r, t = (s.drawSer.logCall (.serialize k x)).respond r ∧
      (r.status = 6 ∨ r.status = 8 ∧ s.lenOverflow = .refuse)) ∨
    ∃ body, s.serDraws.head = .ok body ∧ lengthTaken s body.length ∧
      sinkTurn (packetOf s.registry k body) 0 (atSink s k x body 0) = .next t := by
  rw [routeToSerializer_eq] at h
  split at h
  · cases h
    exact .inl ⟨_, rfl, .inl rfl⟩
  · rename_i body hd
    by_cases hlong : 65529 < body.length ∧ s.lenOverflow = .refuse
    · have ⟨_, hrefuse⟩ := hlong
      cases (if_pos hlong).symm.trans h
      exact .inl ⟨_, rfl, .inr ⟨rfl, hrefuse⟩⟩
    · exact .inr ⟨body, hd, (lengthTaken_iff s _).mpr hlong, (if_neg hlong).symm.trans h⟩

/-- The PACK side of an entry ends, or waits on the sink with the packet of a taken body (R100). -/
theorem routeToSerializer_idle_or_waiting (h : routeToSerializer k x s = .next t) :
    t.txn = .idle ∨ t.resp = s.resp ∧ ∃ body acc, s.serDraws.head = .ok body ∧ lengthTaken s body.length ∧
      waitingOnSink t (packetOf s.registry k body) acc := by
  obtain ⟨_, rfl, -⟩ | ⟨body, hd, hlen, hturn⟩ := routeToSerializer_ended_or_offered h
  · exact .inl rfl
  · obtain ⟨-, hpacket, hacc⟩ := waitingOnSink_atSink s k x body
    obtain hidle | ⟨hresp, acc, hwaits⟩ := sinkTurn_idle_or_waiting hpacket hacc hturn
    · exact .inl hidle
    · exact .inr ⟨hresp, body, acc, hd, hlen, hwaits⟩

end Sink

/-- Settles O37: PACK takes the old response off the port and is then the serializer's entry of its kind. -/
theorem packWaitsOnSinkAlone : Obligations.PackWaitsOnSinkAlone := by
  unfold Obligations.PackWaitsOnSinkAlone
  intro s t k x h
  exact routeToSerializer_idle_or_waiting (s := s.begin) (execPack_tag.symm.trans h)

/-- Settles O29: the row is its kind's entry, whose parser always answers and whose serializer goes on to the sink. -/
theorem rowWaitsOnSinkAlone : Obligations.RowWaitsOnSinkAlone := by
  unfold Obligations.RowWaitsOnSinkAlone
  intro s t u p hp h
  refine ⟨fun input hm => ?_, fun x hm => ?_⟩
  · obtain ⟨input, -, hparse⟩ | ⟨_, hm', -⟩ := dispatchEntry_next ((exec_row hp u s).symm.trans h)
    · obtain ⟨t', ht', hended⟩ | ⟨hrefused, -⟩ := routeToParser_responds_or_overruns p.2 input s
      · cases ht'.symm.trans hparse
        exact hended
      · cases hrefused.symm.trans hparse
    · cases hm.symm.trans hm'
  · obtain hidle | ⟨-, hwaits⟩ := routeToSerializer_idle_or_waiting ((exec_row_of_packAtMux hp u hm).symm.trans h)
    · exact .inl hidle
    · exact .inr hwaits

/-! ### The errors of PACK -/

/-- Settles O32: the serializer's error ends its entry before any packet stands at the sink. -/
theorem serializerErrorForwarded : Obligations.SerializerErrorForwarded := by
  unfold Obligations.SerializerErrorForwarded
  intro s k x e hd
  exact execPack_tag.trans (routeToSerializer_of_err (s := s.begin) hd)

/-- Settles O34: the packet of a taken body stands at the sink, whose first turn takes `j` bytes of it and fails. -/
theorem sinkFailureForwarded : Obligations.SinkFailureForwarded := by
  unfold Obligations.SinkFailureForwarded
  intro s k x body j e ws hd hlen hturns hj
  rw [← packetOf_length s.registry k body] at hj
  rw [execPack_of_taken hd hlen]
  exact sinkTurn_of_fail (s := atSink s.begin k x body 0) hturns (Nat.zero_le j) hj

/-- The sink has no status of its own but OK and SINK_WRITE (R89). -/
theorem sinkTurn_status {p : List Byte} {acc : Nat} {s t : State} {r : Response} (hresp : s.resp = none)
    (h : sinkTurn p acc s = .next t) (hr : t.resp = some r) : r.status = 0 ∨ r.status = 7 := by
  obtain ⟨_, _, _, rfl, -⟩ | ⟨_, _, rfl⟩ | ⟨_, _, _, _, rfl, -⟩ | ⟨_, -, rfl⟩ := sinkTurn_cases h
  · cases hresp.symm.trans hr
  · cases hr
    exact .inl rfl
  · cases hr
    exact .inr rfl
  · cases hr

/-- Under WRAP every length is taken, so HDR_PACK gives a header (R53). -/
theorem execHdrPack_status_of_wrap {sid : Half} {bodyLen : Nat} {s t : State} {r : Response}
    (hwrap : s.lenOverflow = .wrap) (h : exec (.hdrPack sid bodyLen) s = .next t) (hr : t.resp = some r) :
    r.status = 0 := by
  cases (exec_hdrPack_of_taken (.inr hwrap)).symm.trans h
  cases hr
  rfl

/-- Under WRAP a PACK that answers has OK, SERIALIZE or SINK_WRITE (R53, R93). -/
theorem execPack_status_of_wrap {tag : BitVec 4} {x : Payload} {s t : State} {r : Response}
    (hwrap : s.lenOverflow = .wrap) (h : exec (.pack tag x) s = .next t) (hr : t.resp = some r) :
    r.status = 6 ∨ r.status = 0 ∨ r.status = 7 := by
  obtain ⟨k, -, hser⟩ := execPack_next h
  obtain ⟨_, rfl, hstatus | ⟨-, hrefuse⟩⟩ | ⟨body, -, -, hturn⟩ := routeToSerializer_ended_or_offered hser
  · cases hr
    exact .inl hstatus
  · cases hwrap.symm.trans hrefuse
  · exact .inr (sinkTurn_status (s := atSink s.begin k x body 0) rfl hturn hr)

/-- Settles O33: under REFUSE the length is not taken, and under WRAP it is, whatever it is. -/
theorem longBodyGivesLenOverflow : Obligations.LongBodyGivesLenOverflow := by
  unfold Obligations.LongBodyGivesLenOverflow
  refine ⟨fun s sid bodyLen hlong hrefuse => ?_, fun s k x body hd hlong hrefuse => ?_,
    fun s t r sid bodyLen k x hwrap h hr hstatus => ?_⟩
  · obtain ⟨-, hoverflow⟩ := hdrPackBuildsHeader s sid bodyLen
    exact hoverflow hlong hrefuse
  · exact execPack_tag.trans (routeToSerializer_of_overflow (s := s.begin) hd hlong hrefuse)
  · obtain h | h := h
    · have hok := execHdrPack_status_of_wrap hwrap h hr
      simp [hok] at hstatus
    · obtain hother | hother | hother := execPack_status_of_wrap hwrap h hr
      all_goals simp [hother] at hstatus

/-! ### An idle instance with no request -/

/-- The exchange of an idle instance with an empty request port changes nothing (R95). -/
theorem exchange_of_no_request {s : State} (hidle : s.txn = .idle) (hnone : s.requests = []) :
    exchange s = .next s := by
  simp only [exchange, fetch, fetchRequest, hidle, hnone]

/-- Settles O10, by induction on the number of steps, each of which uses up one moment of the reset line. -/
theorem idleInstanceWaits : Obligations.IdleInstanceWaits := by
  unfold Obligations.IdleInstanceWaits
  intro s n hrun hidle hnone
  induction n generalizing s with
  | zero => rfl
  | succ n ih =>
    obtain ⟨hnow, hlater⟩ := (running_succ_iff n s).mp hrun
    have hstep : step s = .next (passed 1 s) := by
      rw [step_of_running hnow, passed_one]
      exact exchange_of_no_request (s := s.passMoment) hidle hnone
    calc runSteps (n + 1) s
        = runSteps n (passed 1 s) := runSteps_succ_of_next hstep n
      _ = .next (passed n (passed 1 s)) := ih (passed 1 s) hlater hidle hnone
      _ = .next (passed (n + 1) s) := by rw [passed_succ n s]

end Sys2Proof.Machine

/-! A reset that leaves nothing of the transaction in flight: before a step, right after a request is accepted, and at a turn
of the sink (70_reset_and_hazards.md R102, R103). -/

namespace Sys2Proof.Machine

open Sys2Proof.Claims

/-! ### A reset before a step, or right after the acceptance -/

section Moments

variable {s : State} {ms : List ResetMoment}

theorem step_of_before (hinj : s.registry.injective = true) (hline : s.resetLine = .before :: ms) :
    step s = .next s.passMoment.applyReset := by
  simp [step, takeStep, hinj, State.moment_of_cons s hline]

theorem step_of_accepted (hinj : s.registry.injective = true) (hline : s.resetLine = .accepted :: ms) :
    step s = abortAccepted s.passMoment := by
  simp [step, takeStep, hinj, State.moment_of_cons s hline]

/-- With no request to accept, the reset finds a dispatch row, which is well formed, or an instance that answers by itself:
either way it lands on the instance as it stands. -/
theorem abortAccepted_of_nothing_accepted (h : s.txn ≠ .idle ∨ s.requests = []) :
    abortAccepted s = .next s.applyReset := by
  unfold abortAccepted
  split
  · rename_i i s1 hfetch
    obtain ⟨r, rest, hidle, hreq, -, -⟩ | ⟨-, rfl, k, t, rfl⟩ := fetch_run_cases hfetch
    · simp [hidle, hreq] at h
    · exact if_pos (dispatchRow_wellFormed k t)
  · rfl

/-- A well-formed request is accepted and gone from the port, and its transaction is aborted (R103). -/
theorem abortAccepted_of_request {r : Issue} {rest : List Issue} (hidle : s.txn = .idle) (hreq : s.requests = r :: rest)
    (hwf : (decodeRequest r.request).wellFormed = true) :
    abortAccepted s = .next (s.accept r rest).applyReset := by
  simp [abortAccepted, fetch, fetchRequest, hidle, hreq, hwf]

end Moments

/-! ### A reset at a turn of the sink -/

/-- The reset takes the sink's turn, and the sink no byte (R103). -/
theorem sinkTurn_of_reset {p : List Byte} {acc : Nat} {ws : List SinkTurn} {s : State}
    (h : s.sinkTurns = .resetHits :: ws) :
    sinkTurn p acc s = .next { afterReset s with sinkTurns := ws } := by
  simp [sinkTurn, h, State.drawSink, State.applyReset, afterReset]

/-- Settles O11: before a step and right after the acceptance the step is the reset itself, and a PACK at the sink, waiting or
just framed, meets the reset as the sink's turn. -/
theorem resetAbortsTransaction : Obligations.ResetAbortsTransaction := by
  unfold Obligations.ResetAbortsTransaction
  refine ⟨fun s ms hinj hline => ?_, fun s ms hinj hline => ⟨fun hnone => ?_, fun r rest i hidle hreq hdec hwf => ?_⟩,
    fun s p acc ws hrun hw hturns => ?_, fun s k x body ws hd hlen hturns => ?_⟩
  · rw [step_of_before hinj hline, passed_one]
    rfl
  · rw [step_of_accepted hinj hline, abortAccepted_of_nothing_accepted (s := s.passMoment) hnone, passed_one]
    rfl
  · obtain rfl : decodeRequest r.request = i := Except.ok.inj hdec
    rw [step_of_accepted hinj hline, abortAccepted_of_request (s := s.passMoment) hidle hreq hwf, passed_one]
    rfl
  · rw [step_of_waiting hrun hw]
    exact sinkTurn_of_reset (s := passed 1 s) hturns
  · rw [execPack_of_taken hd hlen]
    exact sinkTurn_of_reset (s := atSink s.begin k x body 0) hturns

end Sys2Proof.Machine
